-- ==== Sys2Proof/Word.lean ====
section
/-!
DEFINITION. The word types of the capture block (R10, R11, R61): the byte of the memories, of the
bus sample and of the holding registers, and the bulk signal word. All values are unsigned. The
operators of R11 are those of `BitVec`: `&&&`, `|||`, `<<<` and `>>>` drop or fill with zeros.
The bulk signal word has `N_PINS` bits, a parameter of the board (R9), so it is a natural number
below `2 ^ N_PINS`, read and written bit by bit (log entry 7).
-/

namespace Sys2Proof

/-- The byte of `RawFrame`, of the two framebuffer slots and of a bus sample (R61). -/
abbrev Byte := BitVec 8

/-- A value of `N_PINS` bits, format F-BULK: bit `n` stands for pin `n` (R24, R40, R91). -/
abbrev PinWord := Nat

/-- A pin identifier, a natural number below `N_PINS` (R23). -/
abbrev PinId := Nat

/-- The value with the one bit of pin `p` set, `1 << p` (R24). -/
def pinBit (p : PinId) : PinWord := 1 <<< p

end Sys2Proof
end

