-- ==== Sys2Proof/Config.lean ====
section
/-!
DEFINITION. What an instance of the block fixes: the constants of R8, the named values of the
registers (R22, R25, R30, R31, R44), the open parameters of R9 as one record `Params`, the
parameters of the board the machine is reset with, and the free values: constants without a body
that stand for what the spec leaves unspecified (R56, R57, R14).
-/

namespace Sys2Proof

/-! ## Constants of R8 -/

/-- `W`, pixels per row (R8). -/
abbrev Config.width : Nat := 640
/-- `H`, rows per frame (R8). -/
abbrev Config.height : Nat := 400
/-- `FRAME_BYTES = W*H/8`, bytes of one RawFrame and of one plane (R8). -/
abbrev Config.frameBytes : Nat := 32000
/-- `half_H = H/2`, logical rows of one DSTN pass (R8). -/
abbrev Config.halfH : Nat := 200
/-- `bytes_per_row = W/8`, byte columns of a row (R8). -/
abbrev Config.bytesPerRow : Nat := 80
/-- `N_PLANES`, planes per framebuffer slot (R8). -/
abbrev Config.nPlanes : Nat := 3
/-- `SLOT_BYTES = N_PLANES*FRAME_BYTES`, bytes of one slot (R8). -/
abbrev Config.slotBytes : Nat := 96000
/-- `DSTN_SAMPLES`, the stored samples of one DSTN pass (R8). -/
abbrev Config.dstnSamples : Nat := 32000
/-- `INIT_SLOT`, the reset value of DisplayPointer (R9, R39). -/
abbrev Config.initSlot : Fin 2 := 0

/-! ## Named values -/

/-- The two signals that are ever waited on (R129). -/
inductive Signal where
  /-- the pixel clock, `pin.pclk` -/
  | pclk
  /-- the frame sync, `pin.fsync` -/
  | fsync
deriving DecidableEq, Repr, Inhabited

/-- `mode`, the capture state machine that runs (R25). -/
inductive Mode where
  | dstn
  | tft
deriving DecidableEq, Repr, Inhabited

/-- `profile_tag`; `none` is the state after strap code 3 (R22). -/
inductive ProfileTag where
  | a
  | b
  | c
  | none
deriving DecidableEq, Repr, Inhabited

/-- `cap_state`, the control state of the CAP agent (R30). -/
inductive CapState where
  | bootResolve
  | waitFrameHigh
  | waitFrameLow
  | discardLead
  | rowCapture
  | seqCapture
  | done
  | asmSelect
  | asmZero
  | asmCopy
  | asmPublish
deriving DecidableEq, Repr, Inhabited

/-- `gate`, the phase of the clock-gated sample in progress (R31). -/
inductive Gate where
  | arm
  | fire
  | read
deriving DecidableEq, Repr, Inhabited

/-- `feed_state`, the control state of the FEED agent (R44). -/
inductive FeedState where
  | acquire
  | readPtr
  | readEncode
  | submit
  | advance
deriving DecidableEq, Repr, Inhabited

/-- `PTR_SNAPSHOT`: how often FEED reads DisplayPointer (R9, R197). -/
inductive PtrSnapshot where
  | perRow
  | perPass
deriving DecidableEq, Repr, Inhabited

/-- The memories of R60, and the ghost payload, each an address space of its own. -/
inductive Space where
  /-- `RawFrame`, offsets 0..31999 -/
  | rawFrame
  /-- framebuffer slot `FB[k]`, offsets 0..95999 -/
  | slot (k : Fin 2)
  /-- the row slices of FEED, byte `b` of slice `c` at `80*c + b` (R49) -/
  | fslice
  /-- the ghost payload, byte `b` of channel `c` of handle `h` at `80*(3*h + c) + b` (R52) -/
  | payload
deriving DecidableEq, Repr, Inhabited

/-! ## The open parameters of R9 -/

/-- One pin table, a BoardProfile: eight data lines, pixel clock, frame sync and the optional line
sync (R23). -/
structure PinTable where
  /-- `pin.d[0..7]`, the data lines D0 to D7 -/
  d : Vector PinId 8
  /-- `pin.pclk` -/
  pclk : PinId
  /-- `pin.fsync` -/
  fsync : PinId
  /-- `pin.lsync`, `none` where the profile omits it -/
  lsync : Option PinId
deriving DecidableEq, Repr, Inhabited

/-- The zero-initialised pin table: every identifier 0, the line sync absent (R23, R57). -/
def PinTable.zero : PinTable :=
  { d := Vector.replicate 8 0, pclk := 0, fsync := 0, lsync := none }

/-- Every identifier of a pin table. -/
def PinTable.ids (t : PinTable) : List PinId :=
  t.d.toList ++ [t.pclk, t.fsync] ++ t.lsync.toList

/-- The parameters the spec leaves open (R9), each an argument of the model (log entry 5). -/
structure Params where
  /-- `N_PINS`, the width of the bulk signal register (log entry 7) -/
  nPins : Nat
  /-- `PIN_TABLE[0..2]` -/
  pinTable : Vector PinTable 3
  /-- `MODE_OF_CODE[0..3]` -/
  modeOfCode : Vector Mode 4
  /-- `DSTN_LEAD_DISCARD` -/
  dstnLeadDiscard : Nat
  /-- `PCLK_SAMPLE_LEVEL` -/
  pclkSampleLevel : Bool
  /-- `STRAP_PIN[0]` -/
  strapPin0 : PinId
  /-- `STRAP_PIN[1]` -/
  strapPin1 : PinId
  /-- `N_BLOCKS` -/
  nBlocks : Nat
  /-- `FREE_CAP` -/
  freeCap : Nat
  /-- `VALID_CAP` -/
  validCap : Nat
  /-- `PTR_SNAPSHOT` -/
  ptrSnapshot : PtrSnapshot
deriving DecidableEq, Repr, Inhabited

/-- The data pins of strap code 1 that the source gives: D0..D7 = 22,11,12,10,0,15,6,13
(R9, R133). -/
def Config.sourceData : Vector PinId 8 := #v[22, 11, 12, 10, 0, 15, 6, 13]

/-- Profile T of the spec's test configuration (95_test_vectors.md section 2); no fact about a
real board. -/
def Config.profileT : PinTable :=
  { d := Config.sourceData, pclk := 1, fsync := 2, lsync := none }

/-- The test configuration of 95_test_vectors.md section 2, with `D` lead samples and `n` blocks. -/
def Config.testParams (D n : Nat) : Params :=
  { nPins := 32
    pinTable := #v[Config.profileT, Config.profileT, Config.profileT]
    modeOfCode := #v[.tft, .dstn, .dstn, .tft]
    dstnLeadDiscard := D
    pclkSampleLevel := true
    strapPin0 := 3
    strapPin1 := 4
    nBlocks := n
    freeCap := n
    validCap := n
    ptrSnapshot := .perRow }

/-- Mutually distinct identifiers, the invariant of a profile (R23, R133). -/
abbrev PinTable.WellFormed (t : PinTable) : Prop := t.ids.Nodup

/-- Every identifier is below `n`, the width of the bulk signal register (R9, R23). -/
abbrev PinTable.Within (n : Nat) (t : PinTable) : Prop := ∀ p ∈ t.ids, p < n

/-- The constraints R9 puts on the open parameters. Any number of the three tables may carry a line-sync
pin: R9 and R23 set no bound, and the reading of 90_conflicts.md C7, in at most one profile, is not
asked for (DESIGN CHOICE, safe, log entry 34). -/
abbrev Params.WellFormed (p : Params) : Prop :=
  (p.pinTable[0].WellFormed ∧ p.pinTable[1].WellFormed ∧ p.pinTable[2].WellFormed) ∧
  (p.pinTable[0].Within p.nPins ∧ p.pinTable[1].Within p.nPins ∧ p.pinTable[2].Within p.nPins) ∧
  (p.strapPin0 < p.nPins ∧ p.strapPin1 < p.nPins) ∧
  1 ≤ p.nBlocks ∧ p.nBlocks ≤ p.freeCap ∧ 1 ≤ p.validCap

/-! ## Free values -/

/-- The integrator's choice of the open parameters. FREE VALUE: no body (log entry 5). -/
opaque Config.boardChoice : Params

/-- The integrator's choice with the two things R9 gives a value: the data pins of table 1 (log
entry 6) and `PTR_SNAPSHOT = PER_ROW` (R197, log entry 8). -/
def Config.boardDraft : Params :=
  let t := Config.boardChoice.pinTable[1]
  { Config.boardChoice with
      pinTable := Config.boardChoice.pinTable.set 1 { t with d := Config.sourceData }
      ptrSnapshot := .perRow }

/-- The parameters of the board: any choice that meets the constraints of R9. A choice that does
not meet them is no instance of the hardware and is replaced by the test configuration (log
entry 5). -/
def Config.board : Params :=
  if Config.boardDraft.WellFormed then Config.boardDraft else Config.testParams 1 2

/-- What a byte reads as that nothing has written since reset number `epoch` (R57: "a model draws
an arbitrary value and no claim may depend on it"). FREE VALUE: no body (log entry 4). -/
opaque Config.unspecifiedByte (epoch : Nat) (sp : Space) (offset : Nat) : Byte

end Sys2Proof
end

