-- ==== Sys2Proof/Syntax.lean ====
section
/-!
DEFINITION. The rows of `spec/opcode_table.json`, one constructor each: the 26 operations of R102
and the four fixed-width data formats of R90. The block executes no instruction words; a row is
selected by the control state of its agent (R102, R110). An operation takes its operands from the
registers, so most constructors carry none.
-/

namespace Sys2Proof

/-- One row of the opcode table. -/
inductive Instr where
  /-- `BOOT_RESOLVE` (R121) -/
  | bootResolve
  /-- `BUILD_MASKS`, a part of `BOOT_RESOLVE` (R122) -/
  | buildMasks
  /-- `SELECT_MODE`, a part of `BOOT_RESOLVE` (R123) -/
  | selectMode
  /-- `SAMPLE_BYTE`, a BusSampler primitive (R125) -/
  | sampleByte
  /-- `WAIT_FOR_LEVEL(signal, level)`, a BusSampler primitive (R126) -/
  | waitForLevel (sig : Signal) (level : Bool)
  /-- `GATED_SAMPLE`, a BusSampler primitive (R127) -/
  | gatedSample
  /-- `D_WAIT_FRAME_HIGH` (R141) -/
  | dWaitFrameHigh
  /-- `D_WAIT_FRAME_LOW` (R142) -/
  | dWaitFrameLow
  /-- `D_DISCARD_LEAD` (R143) -/
  | dDiscardLead
  /-- `D_ROW_CAPTURE_S0` (R144) -/
  | dRowCaptureS0
  /-- `D_ROW_CAPTURE_S1` (R145) -/
  | dRowCaptureS1
  /-- `D_DONE` (R148) -/
  | dDone
  /-- `T_WAIT_FRAME_HIGH` (R161) -/
  | tWaitFrameHigh
  /-- `T_SEQ_CAPTURE` (R162) -/
  | tSeqCapture
  /-- `T_DONE` (R163) -/
  | tDone
  /-- `ASM_SELECT` (R171) -/
  | asmSelect
  /-- `ASM_ZERO` (R172) -/
  | asmZero
  /-- `ASM_COPY` (R173) -/
  | asmCopy
  /-- `ASM_PUBLISH` (R174) -/
  | asmPublish
  /-- `F_ACQUIRE` (R188) -/
  | fAcquire
  /-- `F_READPTR` (R189) -/
  | fReadPtr
  /-- `F_READ_ENCODE` (R190) -/
  | fReadEncode
  /-- `F_SUBMIT` (R191) -/
  | fSubmit
  /-- `F_ADVANCE` (R192) -/
  | fAdvance
  /-- `SINK_TAKE_VALID` (R226) -/
  | sinkTakeValid
  /-- `SINK_RELEASE_FREE`, with the held handle the SINK chooses (R227) -/
  | sinkReleaseFree (h : Nat)
  /-- format F-SAMPLE: one bus sample, bit 7 from D0 down to bit 0 from D7 (R92) -/
  | fSample (b : Byte)
  /-- format F-PAIR: the two samples `s0` (first, the high byte) and `s1` of a byte column (R93) -/
  | fPair (s0 s1 : Byte)
  /-- format F-TFT: one TFT sample (R97) -/
  | fTft (b : Byte)
  /-- format F-STRAP: the 2-bit strap code (R95) -/
  | fStrap (code : BitVec 2)
deriving DecidableEq, Repr, Inhabited

end Sys2Proof
end

