-- ==== Sys2Proof/WellFormed.lean ====
section
/-!
DEFINITION. Well-formedness of a row's operands. One operand has a range the type does not hold:
the handle the SINK releases is an index `0..N_BLOCKS-1` (R52, R227). The constraints of R9 on the
parameters, `Params.WellFormed`, stand in Config.lean, where the board is drawn under them.
-/

namespace Sys2Proof

/-- The operands of a row are in range for a board with parameters `par`. -/
def Instr.wellFormed (par : Params) : Instr → Bool
  | .bootResolve => true
  | .buildMasks => true
  | .selectMode => true
  | .sampleByte => true
  | .waitForLevel _ _ => true
  | .gatedSample => true
  | .dWaitFrameHigh => true
  | .dWaitFrameLow => true
  | .dDiscardLead => true
  | .dRowCaptureS0 => true
  | .dRowCaptureS1 => true
  | .dDone => true
  | .tWaitFrameHigh => true
  | .tSeqCapture => true
  | .tDone => true
  | .asmSelect => true
  | .asmZero => true
  | .asmCopy => true
  | .asmPublish => true
  | .fAcquire => true
  | .fReadPtr => true
  | .fReadEncode => true
  | .fSubmit => true
  | .fAdvance => true
  | .sinkTakeValid => true
  | .sinkReleaseFree h => decide (h < par.nBlocks)
  | .fSample _ => true
  | .fPair _ _ => true
  | .fTft _ => true
  | .fStrap _ => true

end Sys2Proof
end

