-- ==== Sys2Proof/Decode.lean ====
section
/-!
DEFINITION. The codes of the control states (R104, R105), the selector words (R110), the decoder
from a selector word to the row of the opcode table it selects, total and rejecting by name, and
after it the encoder. A selector word is not fetched from a memory: it is the control state of an
agent, packed (R80, R110).
-/

namespace Sys2Proof

/-! ## Codes of R104 and R105 -/

/-- The 4-bit code of `cap_state` (R104). -/
def CapState.code : CapState → BitVec 4
  | .bootResolve => 0
  | .waitFrameHigh => 1
  | .waitFrameLow => 2
  | .discardLead => 3
  | .rowCapture => 4
  | .seqCapture => 5
  | .done => 6
  | .asmSelect => 7
  | .asmZero => 8
  | .asmCopy => 9
  | .asmPublish => 10

/-- The control state of a 4-bit code; codes 11 to 15 are reserved (R104). -/
def CapState.ofCode (c : BitVec 4) : Option CapState :=
  match c.toNat with
  | 0 => some .bootResolve
  | 1 => some .waitFrameHigh
  | 2 => some .waitFrameLow
  | 3 => some .discardLead
  | 4 => some .rowCapture
  | 5 => some .seqCapture
  | 6 => some .done
  | 7 => some .asmSelect
  | 8 => some .asmZero
  | 9 => some .asmCopy
  | 10 => some .asmPublish
  | _ => none

/-- The 2-bit code of `gate` (R104). -/
def Gate.code : Gate → BitVec 2
  | .arm => 0
  | .fire => 1
  | .read => 2

/-- The gate phase of a 2-bit code; code 3 is reserved (R104). -/
def Gate.ofCode (c : BitVec 2) : Option Gate :=
  match c.toNat with
  | 0 => some .arm
  | 1 => some .fire
  | 2 => some .read
  | _ => none

/-- The 1-bit code of `mode` (R104). -/
def Mode.code : Mode → BitVec 1
  | .dstn => 0
  | .tft => 1

/-- The mode of a bit (R104). -/
def Mode.ofBit (b : Bool) : Mode := if b then .tft else .dstn

/-- The 2-bit code of `profile_tag` (R104). -/
def ProfileTag.code : ProfileTag → BitVec 2
  | .a => 0
  | .b => 1
  | .c => 2
  | .none => 3

/-- The 3-bit code of `feed_state` (R105). -/
def FeedState.code : FeedState → BitVec 3
  | .acquire => 0
  | .readPtr => 1
  | .readEncode => 2
  | .submit => 3
  | .advance => 4

/-- The feeder state of a 3-bit code; codes 5 to 7 are reserved (R105). -/
def FeedState.ofCode (c : BitVec 3) : Option FeedState :=
  match c.toNat with
  | 0 => some .acquire
  | 1 => some .readPtr
  | 2 => some .readEncode
  | 3 => some .submit
  | 4 => some .advance
  | _ => none

/-! ## Selector words of R110 -/

/-- `csel = { cap_state[3:0], mode, gate[1:0], phase }` (R110). -/
def cselWord (c : CapState) (m : Mode) (g : Gate) (phase : Bool) : BitVec 8 :=
  c.code ++ m.code ++ g.code ++ BitVec.ofBool phase

/-- `ssel`: bit 1 the guard of `SINK_TAKE_VALID`, bit 0 that of `SINK_RELEASE_FREE` (R110). -/
def sselWord (take release : Bool) : BitVec 2 := BitVec.ofBool take ++ BitVec.ofBool release

/-- The SINK's choice among the rows its selector enables, and the handle it releases (R110,
R227). -/
inductive SinkChoice where
  | take
  | release (h : Nat)
deriving DecidableEq, Repr, Inhabited

/-- A row that is selected inside another operation: the two parts of `BOOT_RESOLVE` and the three
BusSampler primitives (R102, R110). A wait names its level relative to `L = PCLK_SAMPLE_LEVEL`. -/
inductive InnerRow where
  | buildMasks
  | selectMode
  | sampleByte
  | waitForLevel (L : Bool)
  | gatedSample
deriving DecidableEq, Repr, Inhabited

/-- A word of the opcode table with the format that says how it is read (R110). -/
inductive Selector where
  /-- format CSEL: the operation CAP performs -/
  | csel (w : BitVec 8)
  /-- format CSEL, for a row selected inside the operation CAP performs -/
  | inner (row : InnerRow) (w : BitVec 8)
  /-- format FSEL: the operation FEED performs -/
  | fsel (w : BitVec 3)
  /-- format GUARD: the operation SINK chooses among the enabled ones -/
  | ssel (choice : SinkChoice) (w : BitVec 2)
  /-- format DATA, F-SAMPLE -/
  | dataSample (w : BitVec 8)
  /-- format DATA, F-PAIR, `s0` in the high byte -/
  | dataPair (w : BitVec 16)
  /-- format DATA, F-TFT -/
  | dataTft (w : BitVec 8)
  /-- format DATA, F-STRAP -/
  | dataStrap (w : BitVec 2)
deriving DecidableEq, Repr, Inhabited

/-- Why a selector word selects no row. -/
inductive Reject where
  /-- `cap_state` code 11 to 15 (R106) -/
  | reservedCapState
  /-- `gate` code 3 (R106) -/
  | reservedGate
  /-- `feed_state` code 5 to 7 (R106) -/
  | reservedFeedState
  /-- the row's own condition does not hold of the word (R102, R110) -/
  | rowNotSelected
deriving DecidableEq, Repr, Inhabited

/-! ## Decoder -/

/-- The operation of CAP in a control state: the CAP rows 1 and 7 to 19 of R102. -/
def capOperation (c : CapState) (m : Mode) (phase : Bool) : Instr :=
  match c with
  | .bootResolve => .bootResolve
  | .waitFrameHigh => match m with
    | .dstn => .dWaitFrameHigh
    | .tft => .tWaitFrameHigh
  | .waitFrameLow => .dWaitFrameLow
  | .discardLead => .dDiscardLead
  | .rowCapture => if phase then .dRowCaptureS1 else .dRowCaptureS0
  | .seqCapture => .tSeqCapture
  | .done => match m with
    | .dstn => .dDone
    | .tft => .tDone
  | .asmSelect => .asmSelect
  | .asmZero => .asmZero
  | .asmCopy => .asmCopy
  | .asmPublish => .asmPublish

/-- The operation of FEED in a control state: rows 20 to 24 of R102. -/
def feedOperation : FeedState → Instr
  | .acquire => .fAcquire
  | .readPtr => .fReadPtr
  | .readEncode => .fReadEncode
  | .submit => .fSubmit
  | .advance => .fAdvance

/-- The three sampling states, in which `gate` has meaning (R31, R127). -/
def CapState.sampling : CapState → Bool
  | .discardLead => true
  | .rowCapture => true
  | .seqCapture => true
  | _ => false

/-- The control state a csel word packs, reserved codes rejected by name (R104, R106, R110). -/
def unpackCsel (w : BitVec 8) : Except Reject (CapState × Mode × Gate × Bool) :=
  match CapState.ofCode (w.extractLsb' 4 4), Gate.ofCode (w.extractLsb' 1 2) with
  | none, _ => .error .reservedCapState
  | some _, none => .error .reservedGate
  | some c, some g => .ok (c, Mode.ofBit (w.getLsbD 3), g, w.getLsbD 0)

/-- The row selected inside the operation of a control state, if its own condition holds: rows 2 to
6 of R102 with the constraints of the table. -/
def innerOperation (row : InnerRow) (c : CapState) (g : Gate) : Except Reject Instr :=
  match row with
  | .buildMasks => if c = .bootResolve then .ok .buildMasks else .error .rowNotSelected
  | .selectMode => if c = .bootResolve then .ok .selectMode else .error .rowNotSelected
  | .sampleByte =>
    if c.sampling && decide (g = .read) then .ok .sampleByte else .error .rowNotSelected
  | .gatedSample => if c.sampling then .ok .gatedSample else .error .rowNotSelected
  | .waitForLevel L =>
    match c with
    | .waitFrameHigh => .ok (.waitForLevel .fsync true)
    | .waitFrameLow => .ok (.waitForLevel .fsync false)
    | _ =>
      if c.sampling then
        match g with
        | .arm => .ok (.waitForLevel .pclk (!L))
        | .fire => .ok (.waitForLevel .pclk L)
        | .read => .error .rowNotSelected
      else .error .rowNotSelected

/-- The row a word selects. Every word of every format has an answer. -/
def decode : Selector → Except Reject Instr
  | .csel w => match unpackCsel w with
    | .ok (c, m, _, ph) => .ok (capOperation c m ph)
    | .error r => .error r
  | .inner row w => match unpackCsel w with
    | .ok (c, _, g, _) => innerOperation row c g
    | .error r => .error r
  | .fsel w => match FeedState.ofCode w with
    | some f => .ok (feedOperation f)
    | none => .error .reservedFeedState
  | .ssel .take w => if w.getLsbD 1 then .ok .sinkTakeValid else .error .rowNotSelected
  | .ssel (.release h) w =>
    if w.getLsbD 0 then .ok (.sinkReleaseFree h) else .error .rowNotSelected
  | .dataSample w => .ok (.fSample w)
  | .dataPair w => .ok (.fPair (w.extractLsb' 8 8) (w.extractLsb' 0 8))
  | .dataTft w => .ok (.fTft w)
  | .dataStrap w => .ok (.fStrap w)

/-! ## Encoder -/

/-- The word of a row: its `match` value of the opcode table, with the bits its constraint asks for
(a sampling state for the sampling primitives, `mode = TFT` for `T_SEQ_CAPTURE`). A wait for the
pixel clock is written with `L = 1`, so the level 0 is its `G_ARM` and the level 1 its `G_FIRE`. -/
def encode : Instr → Selector
  | .bootResolve => .csel 0x00#8
  | .buildMasks => .inner .buildMasks 0x00#8
  | .selectMode => .inner .selectMode 0x00#8
  | .sampleByte => .inner .sampleByte 0x34#8
  | .waitForLevel .fsync true => .inner (.waitForLevel true) 0x10#8
  | .waitForLevel .fsync false => .inner (.waitForLevel true) 0x20#8
  | .waitForLevel .pclk false => .inner (.waitForLevel true) 0x30#8
  | .waitForLevel .pclk true => .inner (.waitForLevel true) 0x32#8
  | .gatedSample => .inner .gatedSample 0x30#8
  | .dWaitFrameHigh => .csel 0x10#8
  | .dWaitFrameLow => .csel 0x20#8
  | .dDiscardLead => .csel 0x30#8
  | .dRowCaptureS0 => .csel 0x40#8
  | .dRowCaptureS1 => .csel 0x41#8
  | .dDone => .csel 0x60#8
  | .tWaitFrameHigh => .csel 0x18#8
  | .tSeqCapture => .csel 0x58#8
  | .tDone => .csel 0x68#8
  | .asmSelect => .csel 0x70#8
  | .asmZero => .csel 0x80#8
  | .asmCopy => .csel 0x90#8
  | .asmPublish => .csel 0xA0#8
  | .fAcquire => .fsel 0#3
  | .fReadPtr => .fsel 1#3
  | .fReadEncode => .fsel 2#3
  | .fSubmit => .fsel 3#3
  | .fAdvance => .fsel 4#3
  | .sinkTakeValid => .ssel .take 2#2
  | .sinkReleaseFree h => .ssel (.release h) 1#2
  | .fSample b => .dataSample b
  | .fPair s0 s1 => .dataPair (s0 ++ s1)
  | .fTft b => .dataTft b
  | .fStrap code => .dataStrap code

/-! ## A bare word of the table -/

/-- The format a bare word of the opcode table is read in. The word does not carry its format, and
formats overlap (log entry 9): 16 bits are F-PAIR; a byte 1 to 4 is an fsel word, since a csel word
with those bits packs `BOOT_RESOLVE` with a gate or phase that no state of the block has there; any
other byte is a csel word. -/
def selectorOfTableWord (nbits w : Nat) : Selector :=
  if nbits = 16 then .dataPair (BitVec.ofNat 16 w)
  else if 1 ≤ w ∧ w ≤ 4 then .fsel (BitVec.ofNat 3 w)
  else .csel (BitVec.ofNat 8 w)

/-- The row the decoder reads from a bare word of the opcode table; `none` where it rejects. -/
def decodeTableWord (nbits w : Nat) : Option Instr :=
  match decode (selectorOfTableWord nbits w) with
  | .ok i => some i
  | .error _ => none

end Sys2Proof
end

