-- ==== Sys2Proof/Machine/State.lean ====
section
/-!
DEFINITION. The state of the machine as plain data: every piece of state of R20 to R53 under its own
name, and the model's own fields (INVENTORY.md, State); the reasons a step can stop; the events and
the moves; the state after reset (R57, R240).
-/

namespace Sys2Proof.Machine

/-- A byte memory: (offset, byte) pairs, offsets strictly rising. An unlisted offset holds no value
yet; what the machine reads there is a free value (log entry 4). -/
abbrev Memory := List Host.Cell

/-- One row slice of 80 bytes, format F-SLICE (R64). -/
abbrev Slice := Vector Byte Config.bytesPerRow

/-- Why the machine stops with a fault. The hardware raises none (R210). -/
inductive Fault where
  /-- Raised by the byte accesses of Ops.lean for an offset outside its address space. Every offset
  an operation computes lies inside (R68), so no state the block reaches raises it. Safe. -/
  | outsideSpace (sp : Space) (offset : Nat)
deriving DecidableEq, Repr, Inhabited

/-- Why the machine refuses a step. -/
inductive Refusal where
  /-- Raised by `exec` for a row without a meaning. No arm raises it. Safe. -/
  | notModelled (mnemonic : String)
  /-- Raised by a selector word placed from outside that selects no row, a reserved code of R106(b)
  among them. No control state of the block packs to one. Safe. -/
  | noRow (why : Reject)
  /-- Raised by a move of CAP in a DSTN-only state with mode TFT, or in `SEQ_CAPTURE` with mode DSTN:
  R106(c), "a model refuses them". Unreachable. Safe. -/
  | impossibleCombination (c : CapState) (m : Mode)
  /-- Raised by `F_READ_ENCODE` at its `encode_row` call, and by `F_SUBMIT`, when `fblk` is `none`.
  FEED holds a handle in those states (R48), so no state the block reaches raises it (log entry 15).
  Safe. -/
  | noBlockHeld
deriving DecidableEq, Repr, Inhabited

/-- A trace event (R109). `ACQ`, `ENC` and `SUB` are what the block shows to the outside (R15);
`PUB` is internal. -/
inductive Event where
  /-- `PUB s`: `DisplayPointer` was set to `s` -/
  | pub (slot : Fin 2)
  /-- `ACQ h`: FEED took handle `h` from `free_q` -/
  | acq (h : Nat)
  /-- `ENC h c slice`: `encode_row` was called for handle `h`, channel `c` -/
  | enc (h c : Nat) (slice : Slice)
  /-- `SUB h`: FEED pushed handle `h` to `valid_q` -/
  | sub (h : Nat)
deriving DecidableEq, Repr

/-- One move of one agent, with the environment's choices (R14), or the reset event (R240). -/
inductive Move where
  /-- CAP performs the operation its control state selects -/
  | cap
  /-- FEED performs the operation its control state selects -/
  | feed
  /-- SINK performs `SINK_TAKE_VALID` (R226) -/
  | sinkTake
  /-- SINK performs `SINK_RELEASE_FREE` on handle `h` (R227) -/
  | sinkRelease (h : Nat)
  /-- `BUS_DRIVE`: every pin of `pins` takes its level in `levels`; bits for which there is no pin say
  nothing (R224) -/
  | busDrive (pins levels : PinWord)
  /-- the event `RESET` (R240) -/
  | reset
deriving DecidableEq, Repr, Inhabited

/-- What comes next in a script: a move, or a selector word placed from outside (log entry 10). -/
inductive Turn where
  | move (m : Move)
  | placed (sel : Selector)
deriving DecidableEq, Repr, Inhabited

/-- The whole state. -/
structure State where
  -- configuration registers, written by BOOT_RESOLVE only (R20, R27)
  /-- `strap_code`, 2 bits (R21) -/
  strapCode : BitVec 2
  /-- `profile_tag` (R22) -/
  profileTag : ProfileTag
  /-- the pin table `pin.*` (R23) -/
  pin : PinTable
  /-- the BitMaskTable `mask.d[0..7]`, values of `N_PINS` bits (R24) -/
  mask : Vector PinWord 8
  /-- `mode` (R25) -/
  mode : Mode
  /-- `cfg_unrecognised`, the one sticky flag (R26) -/
  cfgUnrecognised : Bool
  -- capture working state of CAP
  /-- `cap_state` (R30) -/
  capState : CapState
  /-- `gate` (R31) -/
  gate : Gate
  /-- `d_cnt`, lead samples discarded in this pass (R32) -/
  dCnt : Nat
  /-- `y`, the logical row, 0..199 (R33) -/
  y : Nat
  /-- `col`, the byte column, 0..79 (R33) -/
  col : Nat
  /-- `phase`, false for 0 (the next sample is `s0`), true for 1 (R33) -/
  phase : Bool
  /-- `s0`, first sample of a byte column (R34) -/
  s0 : Byte
  /-- `s1`, second sample of a byte column (R34) -/
  s1 : Byte
  /-- `i`, the TFT byte index, 0..31999 (R35) -/
  i : Nat
  /-- `RawFrame` (R37) -/
  rawFrame : Memory
  -- assembler working state of CAP (R36)
  /-- `stg`, the staging slot -/
  stg : Fin 2
  /-- `zo`, the next offset to zero -/
  zo : Nat
  /-- `o`, the RawFrame offset being replicated -/
  o : Nat
  /-- `p`, the plane being written, 0..2 -/
  p : Nat
  -- the framebuffer and the publish cell
  /-- `FB[0]` (R38) -/
  slot0 : Memory
  /-- `FB[1]` (R38) -/
  slot1 : Memory
  /-- `DisplayPointer`, the published slot (R39) -/
  displayPointer : Fin 2
  -- the pins
  /-- `PINS`, the bulk signal register of `N_PINS` bits (R40) -/
  pins : PinWord
  -- feeder working state of FEED
  /-- `feed_state` (R44) -/
  feedState : FeedState
  /-- `fy`, the output row, 0..399 (R45) -/
  fy : Nat
  /-- `fptr`, the value of DisplayPointer FEED read (R46) -/
  fptr : Fin 2
  /-- `fch`, the channel plane being read, 0..2 (R47) -/
  fch : Nat
  /-- `fb`, the byte of the row slice being read, 0..79 (R47) -/
  fb : Nat
  /-- `fblk`, the handle FEED holds, or none (R48) -/
  fblk : Option Nat
  /-- `fslice[0..2]`, the three row slices (R49) -/
  fslice : Vector Slice 3
  -- the hand-off queues, the ghost payload and the sink's bookkeeping
  /-- `free_q`, head first (R50) -/
  freeQ : List Nat
  /-- `valid_q`, head first (R51) -/
  validQ : List Nat
  /-- `payload[h][c]`, ghost, keyed by `3*h + c`, keys strictly rising (R52) -/
  payload : List (Nat × Slice)
  /-- `sink_held`, a set of handles, strictly rising (R53) -/
  sinkHeld : List Nat
  -- the model's own fields (log entries 1, 4, 5, 18)
  /-- the open parameters of R9, never written by a step -/
  par : Params
  /-- the turns that come next -/
  script : List Turn
  /-- how many moves the free schedule has given -/
  tick : Nat
  /-- how many RESET events; keys the free values of unwritten bytes -/
  epoch : Nat
  /-- the byte the last `SAMPLE_BYTE` returned -/
  sample : Byte
  /-- the sample stream `S` of the pass in progress (R128), `S[0]` first -/
  stream : List Byte
  /-- the events emitted since reset, oldest first -/
  trace : List Event
deriving DecidableEq, Repr

/-- The state after reset of a block with parameters `par` (R57), the pins at 0 (R109, log entry 2)
and the registers R57 calls unspecified at 0 (log entry 3). -/
def State.resetWith (par : Params) : State :=
  { strapCode := 0
    profileTag := .none
    pin := PinTable.zero
    mask := Vector.replicate 8 0
    mode := .dstn
    cfgUnrecognised := false
    capState := .bootResolve
    gate := .arm
    dCnt := 0
    y := 0
    col := 0
    phase := false
    s0 := 0
    s1 := 0
    i := 0
    rawFrame := []
    stg := 0
    zo := 0
    o := 0
    p := 0
    slot0 := []
    slot1 := []
    displayPointer := Config.initSlot
    pins := 0
    feedState := .acquire
    fy := 0
    fptr := 0
    fch := 0
    fb := 0
    fblk := none
    fslice := Vector.replicate 3 (Vector.replicate 80 0)
    freeQ := List.range par.nBlocks
    validQ := []
    payload := []
    sinkHeld := []
    par := par
    script := []
    tick := 0
    epoch := 0
    sample := 0
    stream := []
    trace := [] }

/-- The machine right after reset (R57, R240), on the board of `Config.board`. -/
def State.reset : State := State.resetWith Config.board

end Sys2Proof.Machine

namespace Sys2Proof

/-- The move the environment's schedule gives at its `tick`-th turn: which agent steps next, and
what BUS and SINK do, are no part of the block (R14, R56). FREE VALUE: no body (log entry 1). -/
opaque Config.schedule (tick : Nat) : Machine.Move

end Sys2Proof
end

