-- ==== Sys2Proof/Machine/Memory.lean ====
section
/-!
DEFINITION. The canonical sparse map that holds every memory of R60 and the ghost payload of R52: a
list of (key, value) pairs with keys strictly rising. An unlisted key holds no value, so no entry
can equal what an unlisted key holds, and two maps with the same contents are the same list.
-/

namespace Sys2Proof.Machine

/-- The value at a key; `none` where nothing has been written. -/
def Sparse.find {α : Type} : List (Nat × α) → Nat → Option α
  | [], _ => none
  | (k, v) :: rest, a => if k = a then some v else Sparse.find rest a

/-- Write one key, keeping the keys strictly rising. -/
def Sparse.insert {α : Type} (a : Nat) (v : α) : List (Nat × α) → List (Nat × α)
  | [] => [(a, v)]
  | (k, w) :: rest =>
    if a < k then (a, v) :: (k, w) :: rest
    else if a = k then (a, v) :: rest
    else (k, w) :: Sparse.insert a v rest

/-- The canonical form: keys strictly rising. -/
abbrev Sparse.Canonical {α : Type} (m : List (Nat × α)) : Prop :=
  m.Pairwise (fun x y => x.1 < y.1)

/-- The canonical form of a memory (log entry 4). -/
abbrev Memory.wf (m : Memory) : Prop := Sparse.Canonical m

/-- Every listed offset lies in a space of `size` bytes (R60). -/
abbrev Memory.Within (size : Nat) (m : Memory) : Prop := ∀ c ∈ m, c.1 < size

/-- Add a handle to a set of handles kept strictly rising (R53). -/
def HandleSet.insert (h : Nat) : List Nat → List Nat
  | [] => [h]
  | x :: rest =>
    if h < x then h :: x :: rest
    else if h = x then x :: rest
    else x :: HandleSet.insert h rest

end Sys2Proof.Machine
end

