-- ==== Sys2Proof/Machine/Operands.lean ====
section
/-!
DEFINITION. The data formats of R90 as pure functions: the bulk word and its masks, the bus sample,
the strap code, the DSTN pair and its placement, and the layouts of RawFrame, of a framebuffer slot
and of a row slice. Every offset is exact natural-number arithmetic (R101).
-/

namespace Sys2Proof.Machine

/-! ## Pins and samples -/

/-- The level of a pin in a bulk word, `pin(p)` (R12, R91). -/
def pinLevel (w : PinWord) (p : PinId) : Bool := w.testBit p

/-- `PINS` of `n` bits after every pin of `sel` has taken its level in `levels` (R224). -/
def drivePins (n : Nat) (w sel levels : PinWord) : PinWord :=
  (((w ||| sel) ^^^ sel) ||| (levels &&& sel)) % 2 ^ n

/-- The BitMaskTable of a pin table: `mask.d[k] = 1 << pin.d[k]` (R24, R122). -/
def masksOf (t : PinTable) : Vector PinWord 8 :=
  #v[pinBit t.d[0], pinBit t.d[1], pinBit t.d[2], pinBit t.d[3],
     pinBit t.d[4], pinBit t.d[5], pinBit t.d[6], pinBit t.d[7]]

/-- Bit presence under a mask: `(w & mask) != 0` (R92). -/
def maskHit (w mask : PinWord) : Bool := w &&& mask != 0

/-- `sample_byte()` on a bulk word: D0 gives bit 7, D7 gives bit 0 (R92, R125). -/
def packSample (w : PinWord) (mask : Vector PinWord 8) : Byte :=
  BitVec.ofBool (maskHit w mask[0]) ++ BitVec.ofBool (maskHit w mask[1]) ++
  BitVec.ofBool (maskHit w mask[2]) ++ BitVec.ofBool (maskHit w mask[3]) ++
  BitVec.ofBool (maskHit w mask[4]) ++ BitVec.ofBool (maskHit w mask[5]) ++
  BitVec.ofBool (maskHit w mask[6]) ++ BitVec.ofBool (maskHit w mask[7])

/-- F-STRAP: `{ 1 - a, 1 - b }` with `a` the level of `STRAP_PIN[1]` and `b` that of `STRAP_PIN[0]`
(R95). -/
def strapCodeOf (a b : Bool) : BitVec 2 := BitVec.ofBool (!a) ++ BitVec.ofBool (!b)

/-! ## The DSTN pair (R146, R147) -/

/-- `top_byte = (s1 & 0xF0) | ((s0 & 0xF0) >> 4)` (R146). -/
def topByte (s0 s1 : Byte) : Byte := (s1 &&& 0xF0#8) ||| ((s0 &&& 0xF0#8) >>> 4)

/-- `bottom_byte = ((s1 & 0x0F) << 4) | (s0 & 0x0F)` (R146). -/
def bottomByte (s0 s1 : Byte) : Byte := ((s1 &&& 0x0F#8) <<< 4) ||| (s0 &&& 0x0F#8)

/-- `dst_y = (y + 1) mod half_H` (R147). -/
def dstRow (y : Nat) : Nat := (y + 1) % Config.halfH

/-- The RawFrame offset of the top byte of a pair (R145). -/
def topOffset (y col : Nat) : Nat := dstRow y * Config.bytesPerRow + col

/-- The RawFrame offset of the bottom byte of a pair (R145). -/
def bottomOffset (y col : Nat) : Nat := (dstRow y + Config.halfH) * Config.bytesPerRow + col

/-! ## Layouts (R62 to R64) -/

/-- The offset in RawFrame, or in a plane, of the byte that holds pixel `(x, r)` (R62). -/
def pixelOffset (x r : Nat) : Nat := r * Config.bytesPerRow + x / 8

/-- The bit of that byte that holds pixel `(x, r)`, MSB first (R62). -/
def pixelBit (x : Nat) : Nat := 7 - x % 8

/-- The offset in a slot of byte `off` of plane `p` (R63). -/
def planeOffset (p off : Nat) : Nat := p * Config.frameBytes + off

/-- The offset in a slot of byte `b` of the slice of row `row` of plane `c` (R64, R190). -/
def sliceOffset (c row b : Nat) : Nat :=
  c * Config.frameBytes + row * Config.bytesPerRow + b

/-! ## The frame of a sample stream (R98, R149, R164) -/

/-- What becomes of sample `n` of a pass (R98, R128). -/
inductive SampleRole where
  /-- a discarded lead sample -/
  | discarded
  /-- the first sample of pair `k = y*80 + col` -/
  | first (k : Nat)
  /-- the second sample of pair `k = y*80 + col` -/
  | second (k : Nat)
  /-- TFT byte `n` of RawFrame -/
  | byte (n : Nat)
  /-- beyond the pass -/
  | beyond
deriving DecidableEq, Repr

/-- The role of sample `n` of a pass in a mode, with `D` lead samples (R98). -/
def sampleRole (m : Mode) (D n : Nat) : SampleRole :=
  match m with
  | .tft => if n < Config.frameBytes then .byte n else .beyond
  | .dstn =>
    if n < D then .discarded
    else if n < D + Config.dstnSamples then
      if (n - D) % 2 = 0 then .first ((n - D) / 2) else .second ((n - D) / 2)
    else .beyond

/-- Sample `n` of a stream; 0 past its end. -/
def sampleAt (S : List Byte) (n : Nat) : Byte := S.getD n 0#8

/-- The index in the stream of the first sample of the pair stored at row `r` of a half, column `c`
(R149). -/
def pairStart (D r c : Nat) : Nat :=
  D + 2 * (((r + Config.halfH - 1) % Config.halfH) * Config.bytesPerRow + c)

/-- RawFrame byte `off` as a complete DSTN pass leaves it (R149). -/
def dstnFrameByte (D : Nat) (S : List Byte) (off : Nat) : Byte :=
  let r := off / Config.bytesPerRow
  let c := off % Config.bytesPerRow
  if r < Config.halfH then
    topByte (sampleAt S (pairStart D r c)) (sampleAt S (pairStart D r c + 1))
  else
    bottomByte (sampleAt S (pairStart D (r - Config.halfH) c))
      (sampleAt S (pairStart D (r - Config.halfH) c + 1))

/-- RawFrame byte `off` as a complete pass with stream `S` leaves it (R149, R164). -/
def frameByte (m : Mode) (D : Nat) (S : List Byte) (off : Nat) : Byte :=
  match m with
  | .dstn => dstnFrameByte D S off
  | .tft => sampleAt S off

end Sys2Proof.Machine
end

