-- ==== Sys2Proof/Machine/Ops.lean ====
section
/-!
DEFINITION. The named operations over registers, pins, memories, queues and the event interface,
through which every meaning reads and writes them. The block raises no exception and has none to
take or return from (R210, R211, R217, R218): where a step must wait it changes nothing
(`State.wait`, and the queue guards of the feeder), and the condition it waits in is named in
Flags.lean.
-/

namespace Sys2Proof.Machine

/-- The outcome of one step or of one row. -/
abbrev Result := Host.Outcome State Fault Refusal

/-- The outcome of an operation that can only fail by an access outside a space. -/
def Result.ofExcept : Except Fault State → Result
  | .ok s => .next s
  | .error f => .fault f

/-! ## Pins (R40, R69, R91) -/

/-- The pin a signal name stands for (R126). -/
def State.signalPin (s : State) : Signal → PinId
  | .pclk => s.pin.pclk
  | .fsync => s.pin.fsync

/-- `pin(pin.<signal>)`, one poll (R12, R126). -/
def State.level (s : State) (sig : Signal) : Bool := pinLevel s.pins (s.signalPin sig)

/-- What `SAMPLE_BYTE` returns: one bulk read, eight masks (R70, R125). -/
def State.busByte (s : State) : Byte := packSample s.pins s.mask

/-- `BUS_DRIVE`: the pins of `sel` take their level in `levels`, the others keep theirs (R224). -/
def State.drive (s : State) (sel levels : PinWord) : State :=
  { s with pins := drivePins s.par.nPins s.pins sel levels }

/-! ## Byte memories (R60, R66, R70) -/

/-- Byte `off` of RawFrame; a byte nothing has written is a free value (R37, R57). -/
def State.rawByte (s : State) (off : Nat) : Byte :=
  (Sparse.find s.rawFrame off).getD (Config.unspecifiedByte s.epoch .rawFrame off)

/-- The memory of slot `k`, `FB[k]`. -/
def State.slotMem (s : State) (k : Fin 2) : Memory := if k = 0 then s.slot0 else s.slot1

/-- Byte `off` of `FB[k]`; a byte nothing has written is a free value (R38, R57). -/
def State.slotByte (s : State) (k : Fin 2) (off : Nat) : Byte :=
  (Sparse.find (s.slotMem k) off).getD (Config.unspecifiedByte s.epoch (.slot k) off)

/-- `RawFrame[off] <- v` without the bound. -/
def State.setRaw (s : State) (off : Nat) (v : Byte) : State :=
  { s with rawFrame := Sparse.insert off v s.rawFrame }

/-- `FB[k][off] <- v` without the bound. -/
def State.setSlot (s : State) (k : Fin 2) (off : Nat) (v : Byte) : State :=
  { s with
      slot0 := if k = 0 then Sparse.insert off v s.slot0 else s.slot0
      slot1 := if k = 0 then s.slot1 else Sparse.insert off v s.slot1 }

/-- `MemRead(RawFrame, off, 1)` (R12, R66). -/
def State.readRaw (s : State) (off : Nat) : Except Fault Byte :=
  if off < Config.frameBytes then .ok (s.rawByte off) else .error (.outsideSpace .rawFrame off)

/-- `MemWrite(RawFrame, off, 1, v)` (R12, R66). -/
def State.writeRaw (s : State) (off : Nat) (v : Byte) : Except Fault State :=
  if off < Config.frameBytes then .ok (s.setRaw off v) else .error (.outsideSpace .rawFrame off)

/-- `MemRead(FB[k], off, 1)` (R12, R66). -/
def State.readSlot (s : State) (k : Fin 2) (off : Nat) : Except Fault Byte :=
  if off < Config.slotBytes then .ok (s.slotByte k off) else .error (.outsideSpace (.slot k) off)

/-- `MemWrite(FB[k], off, 1, v)` (R12, R66). -/
def State.writeSlot (s : State) (k : Fin 2) (off : Nat) (v : Byte) : Except Fault State :=
  if off < Config.slotBytes then .ok (s.setSlot k off v) else .error (.outsideSpace (.slot k) off)

/-- `fslice[c][b] <- v` (R49, R190). -/
def State.writeSlice (s : State) (c b : Nat) (v : Byte) : Except Fault State :=
  if h : c < 3 ∧ b < Config.bytesPerRow then
    .ok { s with fslice := s.fslice.set c ((s.fslice[c]'h.1).set b v h.2) h.1 }
  else .error (.outsideSpace .fslice (c * Config.bytesPerRow + b))

/-- `fslice[c]`, the first slice for a channel number that does not exist. -/
def State.sliceOf (s : State) (c : Nat) : Slice := s.fslice[c]?.getD s.fslice[0]

/-- Pixel `(x, r)` of RawFrame (R62). -/
def State.rawPixel (s : State) (x r : Nat) : Bool :=
  (s.rawByte (pixelOffset x r)).getLsbD (pixelBit x)

/-- Pixel `(x, r)` of plane `p` of slot `k` (R63). -/
def State.slotPixel (s : State) (k : Fin 2) (p x r : Nat) : Bool :=
  (s.slotByte k (planeOffset p (pixelOffset x r))).getLsbD (pixelBit x)

/-- "the W-bit slice of row `y`" of plane `c` of slot `k`, byte `b` (R64). -/
def State.rowSliceByte (s : State) (k : Fin 2) (c row b : Nat) : Byte :=
  s.slotByte k (sliceOffset c row b)

/-! ## Queues (R50, R51, R186) -/

/-- `pop_head(q)`, enabled only when `q` is not empty: the oldest entry and the rest. -/
def popHead : List Nat → Option (Nat × List Nat)
  | [] => none
  | h :: rest => some (h, rest)

/-- `push_tail(q, h)`, enabled only when `q` holds fewer entries than its capacity. -/
def pushTail (cap : Nat) (q : List Nat) (h : Nat) : Option (List Nat) :=
  if q.length < cap then some (q ++ [h]) else none

/-! ## Events and the encode interface (R15, R52, R187) -/

/-- Emit a trace event (R109). -/
def State.emit (s : State) (e : Event) : State := { s with trace := s.trace ++ [e] }

/-- `encode_row(h, c, fslice[c])`: the event, and the ghost payload of the handle (R187, R190). -/
def State.encodeRow (s : State) (h c : Nat) : State :=
  { s.emit (.enc h c (s.sliceOf c)) with
      payload := Sparse.insert (3 * h + c) (s.sliceOf c) s.payload }

/-- `payload[h][c]`; a slice never encoded is a free value (R52, R57). -/
def State.payloadOf (s : State) (h c : Nat) : Slice :=
  (Sparse.find s.payload (3 * h + c)).getD
    (Vector.ofFn fun b =>
      Config.unspecifiedByte s.epoch .payload (Config.bytesPerRow * (3 * h + c) + b.val))

/-! ## Waiting (R126, R213) -/

/-- One poll of `WAIT_FOR_LEVEL(sig, lvl)`: `k` when the level is found, nothing at all when it is
not (R126). -/
def State.wait (s : State) (sig : Signal) (lvl : Bool) (k : State → State) : Result :=
  .next (if s.level sig = lvl then k s else s)

/-- The signal and level CAP polls for in a state, where it polls (R126, R129, R214). -/
def State.awaited (s : State) : Option (Signal × Bool) :=
  match s.capState with
  | .waitFrameHigh => some (.fsync, true)
  | .waitFrameLow => some (.fsync, false)
  | _ =>
    if s.capState.sampling then
      match s.gate with
      | .arm => some (.pclk, !s.par.pclkSampleLevel)
      | .fire => some (.pclk, s.par.pclkSampleLevel)
      | .read => none
    else none

/-! ## Reset (R240, R241) -/

/-- `RESET`: every piece of state at its value of R57. The pins belong to BUS and keep their levels;
the script and the schedule's position go on; the trace and the stream start anew; the free values
of unwritten bytes are drawn anew (log entry 19). -/
def State.resetEvent (s : State) : State :=
  { State.resetWith s.par with
      pins := s.pins
      script := s.script
      tick := s.tick
      epoch := s.epoch + 1 }

end Sys2Proof.Machine
end

