-- ==== Sys2Proof/Machine/Flags.lean ====
section
/-!
DEFINITION. The one flag of the block, `cfg_unrecognised` (R26), the guard bits of the SINK's
selector (R110), and the six stuck conditions that stand in the place of exceptions (R212, R214).
-/

namespace Sys2Proof.Machine

/-- `cfg_unrecognised` after `BOOT_RESOLVE` with a strap code: set for code 3, otherwise left
(R26, R121). -/
def cfgUnrecognisedAfter (code : BitVec 2) (before : Bool) : Bool :=
  if code = 3#2 then true else before

/-- The guard of `SINK_TAKE_VALID`: `valid_q` is not empty (R226). -/
def State.takeGuard (s : State) : Bool := !s.validQ.isEmpty

/-- The guard of `SINK_RELEASE_FREE`: `sink_held` is not empty and `free_q` holds fewer than
`FREE_CAP` entries (R227). -/
def State.releaseGuard (s : State) : Bool :=
  !s.sinkHeld.isEmpty && decide (s.freeQ.length < s.par.freeCap)

/-- The stuck conditions, the closed list of R214. -/
inductive Stuck where
  | hangFsyncHigh
  | hangFsyncLow
  | hangPclkArm
  | hangPclkFire
  | blockFreeEmpty
  | blockValidFull
deriving DecidableEq, Repr

/-- The stuck condition CAP is in, if any (R214). -/
def State.capStuck (s : State) : Option Stuck :=
  match s.awaited with
  | none => none
  | some (sig, lvl) =>
    if s.level sig = lvl then none
    else match s.capState, s.gate with
      | .waitFrameHigh, _ => some .hangFsyncHigh
      | .waitFrameLow, _ => some .hangFsyncLow
      | _, .arm => some .hangPclkArm
      | _, _ => some .hangPclkFire

/-- The stuck condition FEED is in, if any (R214). -/
def State.feedStuck (s : State) : Option Stuck :=
  match s.feedState with
  | .acquire => if s.freeQ.isEmpty then some .blockFreeEmpty else none
  | .submit => if s.validQ.length < s.par.validCap then none else some .blockValidFull
  | _ => none

end Sys2Proof.Machine
end

