-- ==== Sys2Proof/Machine/Assembler.lean ====
section
/-!
DEFINITION. FrameAssembler: the four steps of `publish_from` (R171 to R174).
-/

namespace Sys2Proof.Machine

/-- After a zeroed byte; after byte 95999 the copy begins (R172). -/
def State.nextZero (s : State) : State :=
  if s.zo < Config.slotBytes - 1 then { s with zo := s.zo + 1 }
  else { s with o := 0, p := 0, capState := .asmCopy }

/-- After a copied byte: planes inner, offsets outer; after the last the publish follows (R173). -/
def State.nextCopy (s : State) : State :=
  if s.p < Config.nPlanes - 1 then { s with p := s.p + 1 }
  else if s.o < Config.frameBytes - 1 then { s with p := 0, o := s.o + 1 }
  else { s with p := 0, capState := .asmPublish }

/-- `ASM_SELECT`: the staging slot is the one not published (R171). -/
def execAsmSelect (s : State) : Result :=
  .next { s with stg := 1 - s.displayPointer, zo := 0, capState := .asmZero }

/-- `ASM_ZERO` (R172). -/
def execAsmZero (s : State) : Result :=
  match s.writeSlot s.stg s.zo 0#8 with
  | .error f => .fault f
  | .ok t => .next t.nextZero

/-- `ASM_COPY` (R173). -/
def execAsmCopy (s : State) : Result :=
  match s.readRaw s.o with
  | .error f => .fault f
  | .ok v =>
    match s.writeSlot s.stg (planeOffset s.p s.o) v with
    | .error f => .fault f
    | .ok t => .next t.nextCopy

/-- `ASM_PUBLISH`: the one write of `DisplayPointer` (R174). -/
def execAsmPublish (s : State) : Result :=
  .next { s.emit (.pub s.stg) with displayPointer := s.stg, capState := .waitFrameHigh }

end Sys2Proof.Machine
end

