-- ==== Sys2Proof/Machine/Board.lean ====
section
/-!
DEFINITION. BoardProfileResolver: `BOOT_RESOLVE` and its two parts (R121 to R124), and the strap
code format F-STRAP (R95, R96).
-/

namespace Sys2Proof.Machine

/-- What a strap code selects: the code, the profile and its pin table. Code 3 sets
`cfg_unrecognised` and leaves the pin table as reset left it (R96, R121, R124). -/
def State.latchStrap (s : State) (code : BitVec 2) : State :=
  let t := { s with strapCode := code, cfgUnrecognised := cfgUnrecognisedAfter code s.cfgUnrecognised }
  match code.toNat with
  | 0 => { t with profileTag := .a, pin := s.par.pinTable[0] }
  | 1 => { t with profileTag := .b, pin := s.par.pinTable[1] }
  | 2 => { t with profileTag := .c, pin := s.par.pinTable[2] }
  | _ => { t with profileTag := .none }

/-- `mask.d[k] <- 1 << pin.d[k]` (R122). -/
def State.buildMasks (s : State) : State := { s with mask := masksOf s.pin }

/-- `MODE_OF_CODE[code]` (R96, R123). -/
def modeOfCode (par : Params) (code : BitVec 2) : Mode := par.modeOfCode[code.toNat]'code.isLt

/-- `mode <- MODE_OF_CODE[strap_code]` (R123). -/
def State.selectMode (s : State) : State := { s with mode := modeOfCode s.par s.strapCode }

/-- The strap code on the pins (R95, R121). -/
def State.strapOnPins (s : State) : BitVec 2 :=
  strapCodeOf (pinLevel s.pins s.par.strapPin1) (pinLevel s.pins s.par.strapPin0)

/-- `BOOT_RESOLVE` (R121). -/
def execBootResolve (s : State) : Result :=
  .next { (s.latchStrap s.strapOnPins).buildMasks.selectMode with capState := .waitFrameHigh }

/-- `BUILD_MASKS` (R122). -/
def execBuildMasks (s : State) : Result := .next s.buildMasks

/-- `SELECT_MODE` (R123). -/
def execSelectMode (s : State) : Result := .next s.selectMode

/-- Format F-STRAP: the code is what `strap_code` carries, and it gives the row of R96's table
(log entry 12). -/
def execFStrap (code : BitVec 2) (s : State) : Result := .next (s.latchStrap code).selectMode

end Sys2Proof.Machine
end

