-- ==== Sys2Proof/Machine/Capture.lean ====
section
/-!
DEFINITION. What the capture rows share: the steps that follow a satisfied wait, what a delivered
sample does in each sampling state, and the three phases of the clock-gated sample they are run
through (R127, R141 to R145, R161, R162).
-/

namespace Sys2Proof.Machine

/-! ## After a satisfied wait -/

/-- `D_WAIT_FRAME_HIGH` once the frame sync is 1 (R141). -/
def State.afterHighDstn (s : State) : State := { s with capState := .waitFrameLow }

/-- The start of row capture: `y <- 0 ; col <- 0 ; phase <- 0 ; cap_state <- ROW_CAPTURE`
(R142, R143). -/
def State.startRows (s : State) : State :=
  { s with y := 0, col := 0, phase := false, capState := .rowCapture }

/-- `D_WAIT_FRAME_LOW` once the frame sync is 0, the frame-sync event: samples count from here, and
`D = 0` skips `DISCARD_LEAD` (R128, R142). -/
def State.afterLowDstn (s : State) : State :=
  let t := { s with gate := .arm, stream := [] }
  if 0 < s.par.dstnLeadDiscard then { t with dCnt := 0, capState := .discardLead }
  else t.startRows

/-- `T_WAIT_FRAME_HIGH` once the frame sync is 1, the frame-sync event: samples count from here
(R128, R161). -/
def State.afterHighTft (s : State) : State :=
  { s with i := 0, gate := .arm, capState := .seqCapture, stream := [] }

/-- `G_ARM` once the clock is at `1 - L` (R127). -/
def State.afterArm (s : State) : State := { s with gate := .fire }

/-- `G_FIRE` once the clock is at `L` (R127). -/
def State.afterFire (s : State) : State := { s with gate := .read }

/-- How the operation that encloses a wait goes on once the wait is over (R126). -/
def State.goOn (s : State) : State :=
  match s.capState with
  | .waitFrameHigh => match s.mode with
    | .dstn => s.afterHighDstn
    | .tft => s.afterHighTft
  | .waitFrameLow => s.afterLowDstn
  | _ => match s.gate with
    | .arm => s.afterArm
    | .fire => s.afterFire
    | .read => s

/-! ## What a delivered sample does -/

/-- A lead sample is dropped; the `D`-th starts row capture (R143). -/
def State.discardLead (s : State) : State :=
  let t := { s with dCnt := s.dCnt + 1 }
  if t.dCnt = s.par.dstnLeadDiscard then t.startRows else t

/-- The first sample of a pair: `s0 <- b ; phase <- 1` (R144). -/
def State.takeS0 (s : State) (b : Byte) : State := { s with s0 := b, phase := true }

/-- The position after a stored pair; after `(y = 199, col = 79)` the pass is done (R145). -/
def State.nextPair (s : State) : State :=
  let t := { s with phase := false }
  if s.col < Config.bytesPerRow - 1 then { t with col := s.col + 1 }
  else if s.y < Config.halfH - 1 then { t with col := 0, y := s.y + 1 }
  else { t with col := 0, capState := .done }

/-- The second sample of a pair: the two reconstructed bytes are stored, top first, and the position
moves on (R145, R146, R147). -/
def State.takeS1 (s : State) (b : Byte) : Except Fault State :=
  let t := { s with s1 := b }
  match t.writeRaw (topOffset s.y s.col) (topByte s.s0 b) with
  | .error f => .error f
  | .ok u =>
    match u.writeRaw (bottomOffset s.y s.col) (bottomByte s.s0 b) with
    | .error f => .error f
    | .ok v => .ok v.nextPair

/-- The index after a stored TFT byte; after byte 31999 the pass is done (R162). -/
def State.nextByte (s : State) : State :=
  if s.i < Config.frameBytes - 1 then { s with i := s.i + 1 } else { s with capState := .done }

/-- A TFT sample is stored as it is at `i` (R162). -/
def State.takeTft (s : State) (b : Byte) : Except Fault State :=
  match s.writeRaw s.i b with
  | .error f => .error f
  | .ok t => .ok t.nextByte

/-- Deliver a sample to the operation that encloses `GATED_SAMPLE` (R127). -/
def State.deliver (s : State) (b : Byte) : Result :=
  match s.capState with
  | .discardLead => .next s.discardLead
  | .rowCapture => if s.phase then Result.ofExcept (s.takeS1 b) else .next (s.takeS0 b)
  | .seqCapture => Result.ofExcept (s.takeTft b)
  | _ => .next s

/-! ## The clock-gated sample -/

/-- The read of `G_READ`: the byte of `SAMPLE_BYTE` is the next sample of the stream, and the gate
is armed again (R127, R128). -/
def State.takeSample (s : State) : State :=
  { s with gate := .arm, sample := s.busByte, stream := s.stream ++ [s.busByte] }

/-- One step of `GATED_SAMPLE` with the action on the delivered byte. The read and the action are
one step (R127, R143 to R145, R162). -/
def State.gated (s : State) (act : State → Byte → Result) : Result :=
  match s.gate with
  | .arm => s.wait .pclk (!s.par.pclkSampleLevel) State.afterArm
  | .fire => s.wait .pclk s.par.pclkSampleLevel State.afterFire
  | .read => act s.takeSample s.busByte

end Sys2Proof.Machine
end

