-- ==== Sys2Proof/Machine/Dstn.lean ====
section
/-!
DEFINITION. The DSTN capture operations (R141 to R148) and the pair format F-PAIR (R93).
-/

namespace Sys2Proof.Machine

/-- `D_WAIT_FRAME_HIGH` (R141). -/
def execDWaitFrameHigh (s : State) : Result := s.wait .fsync true State.afterHighDstn

/-- `D_WAIT_FRAME_LOW` (R142). -/
def execDWaitFrameLow (s : State) : Result := s.wait .fsync false State.afterLowDstn

/-- `D_DISCARD_LEAD` (R143). -/
def execDDiscardLead (s : State) : Result := s.gated fun t _ => .next t.discardLead

/-- `D_ROW_CAPTURE_S0` (R144). -/
def execDRowCaptureS0 (s : State) : Result := s.gated fun t b => .next (t.takeS0 b)

/-- `D_ROW_CAPTURE_S1` (R145). -/
def execDRowCaptureS1 (s : State) : Result := s.gated fun t b => Result.ofExcept (t.takeS1 b)

/-- `D_DONE` (R148). -/
def execDDone (s : State) : Result := .next { s with capState := .asmSelect }

/-- Format F-PAIR: the two samples of one byte column, delivered at the present position (R93, R94,
R144, R145, log entry 12). -/
def execFPair (s0 s1 : Byte) (s : State) : Result := Result.ofExcept ((s.takeS0 s0).takeS1 s1)

end Sys2Proof.Machine
end

