-- ==== Sys2Proof/Machine/Feeder.lean ====
section
/-!
DEFINITION. OutputFeeder: the five steps of an output row (R188 to R192). A step whose queue guard
does not hold waits: it changes nothing (R212, R213).
-/

namespace Sys2Proof.Machine

/-- The pointer is read for this row: always with `PER_ROW`, for row 0 only with `PER_PASS`
(R188, R197). -/
def State.readsPointer (s : State) : Bool :=
  decide (s.par.ptrSnapshot = .perRow) || decide (s.fy = 0)

/-- FEED with handle `h` taken from the head of `free_q` (R188). -/
def State.acquired (s : State) (h : Nat) (rest : List Nat) : State :=
  let t := { s.emit (.acq h) with freeQ := rest, fblk := some h }
  if s.readsPointer then { t with feedState := .readPtr }
  else { t with fch := 0, fb := 0, feedState := .readEncode }

/-- `F_ACQUIRE` (R188). -/
def execFAcquire (s : State) : Result :=
  .next (match popHead s.freeQ with
    | none => s
    | some (h, rest) => s.acquired h rest)

/-- `F_READPTR` (R189). -/
def execFReadPtr (s : State) : Result :=
  .next { s with fptr := s.displayPointer, fch := 0, fb := 0, feedState := .readEncode }

/-- After the `encode_row` call of a channel (R190). -/
def State.nextChannel (s : State) : State :=
  if s.fch < Config.nPlanes - 1 then { s with fb := 0, fch := s.fch + 1 }
  else { s with fb := 0, feedState := .submit }

/-- `F_READ_ENCODE`: one byte of the slice; with the last one, the `encode_row` call (R190). -/
def execFReadEncode (s : State) : Result :=
  match s.readSlot s.fptr (sliceOffset s.fch s.fy s.fb) with
  | .error f => .fault f
  | .ok v =>
    match s.writeSlice s.fch s.fb v with
    | .error f => .fault f
    | .ok t =>
      if s.fb < Config.bytesPerRow - 1 then .next { t with fb := s.fb + 1 }
      else match s.fblk with
        | none => .refused .noBlockHeld
        | some h => .next (t.encodeRow h s.fch).nextChannel

/-- `F_SUBMIT` (R191). -/
def execFSubmit (s : State) : Result :=
  match s.fblk with
  | none => .refused .noBlockHeld
  | some h =>
    .next (match pushTail s.par.validCap s.validQ h with
      | none => s
      | some q => { s.emit (.sub h) with validQ := q, fblk := none, feedState := .advance })

/-- `F_ADVANCE` (R192). -/
def execFAdvance (s : State) : Result :=
  .next { s with fy := if s.fy < Config.height - 1 then s.fy + 1 else 0, feedState := .acquire }

end Sys2Proof.Machine
end

