-- ==== Sys2Proof/Machine/Sampler.lean ====
section
/-!
DEFINITION. BusSampler: the three primitives the capture operations are built from (R125 to R127,
log entry 11), and the sample format F-SAMPLE (R92).
-/

namespace Sys2Proof.Machine

/-- `SAMPLE_BYTE`: one bulk read; the byte it returns is held in `sample` (R125, log entry 11). -/
def execSampleByte (s : State) : Result := .next { s with sample := s.busByte }

/-- `WAIT_FOR_LEVEL(sig, lvl)`, one poll: when the level is found the enclosing operation goes on,
if it is this wait it makes; otherwise nothing changes (R126). -/
def execWaitForLevel (sig : Signal) (lvl : Bool) (s : State) : Result :=
  s.wait sig lvl fun t => if t.awaited = some (sig, lvl) then t.goOn else t

/-- `GATED_SAMPLE`, one step of its three phases; the byte of `G_READ` goes to the enclosing
operation (R127). -/
def execGatedSample (s : State) : Result := s.gated State.deliver

/-- Format F-SAMPLE: the byte is the result of `SAMPLE_BYTE` (R90, R92, log entry 12). -/
def execFSample (b : Byte) (s : State) : Result := .next { s with sample := b }

end Sys2Proof.Machine
end

