-- ==== Sys2Proof/Machine/Sink.lean ====
section
/-!
DEFINITION. The two operations of the Display Sink at the ends of the queues (R226 to R228). A step
whose guard does not hold is not enabled and changes nothing.
-/

namespace Sys2Proof.Machine

/-- `SINK_TAKE_VALID` (R226). -/
def execSinkTakeValid (s : State) : Result :=
  .next (match popHead s.validQ with
    | none => s
    | some (h, rest) => { s with validQ := rest, sinkHeld := HandleSet.insert h s.sinkHeld })

/-- `SINK_RELEASE_FREE` of the held handle `h` (R227). -/
def execSinkReleaseFree (h : Nat) (s : State) : Result :=
  .next (if h ∈ s.sinkHeld then
    match pushTail s.par.freeCap s.freeQ h with
    | none => s
    | some q => { s with sinkHeld := s.sinkHeld.erase h, freeQ := q }
  else s)

end Sys2Proof.Machine
end

