-- ==== Sys2Proof/Machine/Tft.lean ====
section
/-!
DEFINITION. The TFT capture operations (R161 to R163) and the sample format F-TFT (R97).
-/

namespace Sys2Proof.Machine

/-- `T_WAIT_FRAME_HIGH` (R161, R165: a level, not an edge). -/
def execTWaitFrameHigh (s : State) : Result := s.wait .fsync true State.afterHighTft

/-- `T_SEQ_CAPTURE` (R162). -/
def execTSeqCapture (s : State) : Result := s.gated fun t b => Result.ofExcept (t.takeTft b)

/-- `T_DONE` (R163). -/
def execTDone (s : State) : Result := .next { s with capState := .asmSelect }

/-- Format F-TFT: one sample, stored unchanged at `i` (R97, R162, log entry 12). -/
def execFTft (b : Byte) (s : State) : Result := Result.ofExcept (s.takeTft b)

end Sys2Proof.Machine
end

