-- ==== Sys2Proof/Machine/Dispatch.lean ====
section
/-!
DEFINITION. The meaning of every row of the opcode table, one arm each.
-/

namespace Sys2Proof.Machine

def exec (i : Instr) (s : State) : Host.Outcome State Fault Refusal :=
  match i with
  | .bootResolve => Sys2Proof.Machine.execBootResolve s
  | .buildMasks => Sys2Proof.Machine.execBuildMasks s
  | .selectMode => Sys2Proof.Machine.execSelectMode s
  | .sampleByte => Sys2Proof.Machine.execSampleByte s
  | .waitForLevel sig level => Sys2Proof.Machine.execWaitForLevel sig level s
  | .gatedSample => Sys2Proof.Machine.execGatedSample s
  | .dWaitFrameHigh => Sys2Proof.Machine.execDWaitFrameHigh s
  | .dWaitFrameLow => Sys2Proof.Machine.execDWaitFrameLow s
  | .dDiscardLead => Sys2Proof.Machine.execDDiscardLead s
  | .dRowCaptureS0 => Sys2Proof.Machine.execDRowCaptureS0 s
  | .dRowCaptureS1 => Sys2Proof.Machine.execDRowCaptureS1 s
  | .dDone => Sys2Proof.Machine.execDDone s
  | .tWaitFrameHigh => Sys2Proof.Machine.execTWaitFrameHigh s
  | .tSeqCapture => Sys2Proof.Machine.execTSeqCapture s
  | .tDone => Sys2Proof.Machine.execTDone s
  | .asmSelect => Sys2Proof.Machine.execAsmSelect s
  | .asmZero => Sys2Proof.Machine.execAsmZero s
  | .asmCopy => Sys2Proof.Machine.execAsmCopy s
  | .asmPublish => Sys2Proof.Machine.execAsmPublish s
  | .fAcquire => Sys2Proof.Machine.execFAcquire s
  | .fReadPtr => Sys2Proof.Machine.execFReadPtr s
  | .fReadEncode => Sys2Proof.Machine.execFReadEncode s
  | .fSubmit => Sys2Proof.Machine.execFSubmit s
  | .fAdvance => Sys2Proof.Machine.execFAdvance s
  | .sinkTakeValid => Sys2Proof.Machine.execSinkTakeValid s
  | .sinkReleaseFree h => Sys2Proof.Machine.execSinkReleaseFree h s
  | .fSample b => Sys2Proof.Machine.execFSample b s
  | .fPair s0 s1 => Sys2Proof.Machine.execFPair s0 s1 s
  | .fTft b => Sys2Proof.Machine.execFTft b s
  | .fStrap code => Sys2Proof.Machine.execFStrap code s

end Sys2Proof.Machine
end

