-- ==== Sys2Proof/Machine/Schedule.lean ====
section
/-!
DEFINITION. Selection and one turn: the selector words of a state (R110), the operation an agent's
control state selects (R102), one move of an agent or of the environment (R14), one turn of a
script, and the placing of a bare word of the opcode table (log entry 10).
-/

namespace Sys2Proof.Machine

/-- `csel` of a state (R110). -/
def State.csel (s : State) : BitVec 8 := cselWord s.capState s.mode s.gate s.phase

/-- `fsel` of a state (R110). -/
def State.fsel (s : State) : BitVec 3 := s.feedState.code

/-- `ssel` of a state (R110). -/
def State.ssel (s : State) : BitVec 2 := sselWord s.takeGuard s.releaseGuard

/-- The pairs of `cap_state` and `mode` that a model refuses (R106). -/
def impossiblePair (c : CapState) (m : Mode) : Bool :=
  match c, m with
  | .waitFrameLow, .tft => true
  | .discardLead, .tft => true
  | .rowCapture, .tft => true
  | .seqCapture, .dstn => true
  | _, _ => false

/-- Run the row a selector word selects; a word that selects none is refused by name (R106). -/
def runSelector (sel : Selector) (s : State) : Result :=
  match decode sel with
  | .ok i => exec i s
  | .error r => .refused (.noRow r)

/-- A move of CAP: the operation `csel` selects (R102, R106, R110). -/
def runCap (s : State) : Result :=
  if impossiblePair s.capState s.mode then
    .refused (.impossibleCombination s.capState s.mode)
  else runSelector (.csel s.csel) s

/-- A move of FEED: the operation `fsel` selects (R102, R110). -/
def runFeed (s : State) : Result := runSelector (.fsel s.fsel) s

/-- A move of SINK: the row it chooses, when its guard enables it; a row that is not enabled does
not step (R102, R110, R226, R227). -/
def runSink (c : SinkChoice) (s : State) : Result :=
  match decode (.ssel c s.ssel) with
  | .ok i => exec i s
  | .error _ => .next s

/-- One move (R14, R224, R240). -/
def runMove (m : Move) (s : State) : Result :=
  match m with
  | .cap => runCap s
  | .feed => runFeed s
  | .sinkTake => runSink .take s
  | .sinkRelease h => runSink (.release h) s
  | .busDrive pins levels => .next (s.drive pins levels)
  | .reset => .next s.resetEvent

/-- One turn of a script. -/
def runTurn (t : Turn) (s : State) : Result :=
  match t with
  | .move m => runMove m s
  | .placed sel => runSelector sel s

/-- One step: the next turn of the script, and where the script is empty the next move of the free
schedule (log entry 1). -/
def runNext (s : State) : Result :=
  match s.script with
  | t :: rest => runTurn t { s with script := rest }
  | [] => runMove (Config.schedule s.tick) { s with tick := s.tick + 1 }

/-- The turn the next step takes. -/
def State.upNext (s : State) : Turn :=
  match s.script with
  | t :: _ => t
  | [] => .move (Config.schedule s.tick)

/-- A sequence of moves, stopping at the first fault or refusal. -/
def runMoves : List Move → State → Result
  | [], s => .next s
  | m :: ms, s =>
    match runMove m s with
    | .next t => runMoves ms t
    | .fault f => .fault f
    | .refused r => .refused r

/-! ## Placing a bare word of the opcode table (log entry 10) -/

/-- The mode in which a control state exists: the other one where the given mode is refused
(R106). -/
def legalMode (c : CapState) (m : Mode) : Mode :=
  if impossiblePair c m then
    match m with
    | .dstn => .tft
    | .tft => .dstn
  else m

/-- Put CAP in the control state a csel word packs, and let CAP move next. -/
def State.placeCsel (s : State) (c : CapState) (m : Mode) (g : Gate) (ph : Bool) : State :=
  { s with
      capState := c, mode := legalMode c m, gate := g, phase := ph
      script := .move .cap :: s.script }

/-- Put FEED where an fsel word says, and let FEED move next. In the states between the acquire and
the submit FEED holds a handle; where it holds none it is given handle 0 (R48). -/
def State.placeFsel (s : State) (f : FeedState) : State :=
  let t := { s with feedState := f, script := .move .feed :: s.script }
  match f, s.fblk with
  | .readPtr, none => { t with fblk := some 0, freeQ := s.freeQ.erase 0 }
  | .readEncode, none => { t with fblk := some 0, freeQ := s.freeQ.erase 0 }
  | .submit, none => { t with fblk := some 0, freeQ := s.freeQ.erase 0 }
  | _, _ => t

/-- Put a selector word where the next step finds it: the control state of its agent, with that
agent to move next; for any other word the word itself. -/
def State.place (s : State) (sel : Selector) : State :=
  match sel with
  | .csel w => match unpackCsel w with
    | .ok (c, m, g, ph) => s.placeCsel c m g ph
    | .error _ => { s with script := .placed sel :: s.script }
  | .fsel w => match FeedState.ofCode w with
    | some f => s.placeFsel f
    | none => { s with script := .placed sel :: s.script }
  | _ => { s with script := .placed sel :: s.script }

end Sys2Proof.Machine
end

