-- ==== Sys2Proof/Machine/Step.lean ====
section
/-!
DEFINITION. The step function, and the placing of an instruction's word where the next step runs
it. Both only call Schedule.lean.
-/

namespace Sys2Proof.Machine

/-- One step of the machine: one move of one agent (R14). -/
def step (s : State) : Host.Outcome State Fault Refusal := runNext s

/-- `s` with a bare word of the opcode table placed so that the next step runs the row it selects
(log entry 10). -/
def State.withFetchWord (s : State) (nbits w : Nat) : State := s.place (selectorOfTableWord nbits w)

end Sys2Proof.Machine
end

