-- ==== Sys2Proof/Machine/Stimulus.lean ====
section
/-!
DEFINITION. The stimulus notation of R109: script lines as moves of BUS and SINK, the macros, and
the quiescent schedule, one schedule among the many that R14 allows.
-/

namespace Sys2Proof.Machine

/-- A line of a stimulus script (R109). -/
inductive Line where
  /-- `STRAP a b` -/
  | strap (a b : Bool)
  /-- `FS v` -/
  | fs (v : Bool)
  /-- `PCLK v` -/
  | pclk (v : Bool)
  /-- `DATA xx` -/
  | data (b : Byte)
  /-- `RESET` -/
  | reset
  /-- `TAKE` -/
  | take
  /-- `FREE h` -/
  | free (h : Nat)
deriving DecidableEq, Repr

/-- A word with pin `p` at level `v` and every other pin at 0. -/
def pinAt (p : PinId) (v : Bool) : PinWord := if v then pinBit p else 0

/-- The eight data pins of a table. -/
def dataPins (t : PinTable) : PinWord :=
  pinBit t.d[0] ||| pinBit t.d[1] ||| pinBit t.d[2] ||| pinBit t.d[3] |||
  pinBit t.d[4] ||| pinBit t.d[5] ||| pinBit t.d[6] ||| pinBit t.d[7]

/-- The levels `pin(pin.d[k]) = b[7-k]` (R109). Where two data lines share a pin, as for strap code 3,
the line asks two levels of it and R109 names no winner: the pin takes the OR of them (DESIGN CHOICE,
unsafe, log entry 31). -/
def dataLevels (t : PinTable) (b : Byte) : PinWord :=
  pinAt t.d[0] (b.getLsbD 7) ||| pinAt t.d[1] (b.getLsbD 6) ||| pinAt t.d[2] (b.getLsbD 5) |||
  pinAt t.d[3] (b.getLsbD 4) ||| pinAt t.d[4] (b.getLsbD 3) ||| pinAt t.d[5] (b.getLsbD 2) |||
  pinAt t.d[6] (b.getLsbD 1) ||| pinAt t.d[7] (b.getLsbD 0)

/-- The move a line stands for in a state (R109). `STRAP a b` on a board whose two strap pins are one
takes the OR of the levels, as `dataLevels` does (DESIGN CHOICE, unsafe, log entry 31). -/
def Line.toMove (s : State) : Line → Move
  | .strap a b =>
    .busDrive (pinBit s.par.strapPin1 ||| pinBit s.par.strapPin0)
      (pinAt s.par.strapPin1 a ||| pinAt s.par.strapPin0 b)
  | .fs v => .busDrive (pinBit s.pin.fsync) (pinAt s.pin.fsync v)
  | .pclk v => .busDrive (pinBit s.pin.pclk) (pinAt s.pin.pclk v)
  | .data b => .busDrive (dataPins s.pin) (dataLevels s.pin b)
  | .reset => .reset
  | .take => .sinkTake
  | .free h => .sinkRelease h

/-- The macro `SAMPLE xx` with `L = PCLK_SAMPLE_LEVEL` (R109). -/
def sampleLines (L : Bool) (b : Byte) : List Line := [.pclk (!L), .data b, .pclk L]

/-- The macro `SAMPLES b0 b1 ... bn` (R109). -/
def samplesLines (L : Bool) (bs : List Byte) : List Line := bs.flatMap (sampleLines L)

/-- The macro `FRAME_TFT F`: frame sync drops after the first sample (R109). -/
def frameTftLines (L : Bool) (F : List Byte) : List Line :=
  .fs true :: samplesLines L (F.take 1) ++ .fs false :: samplesLines L (F.drop 1)

/-- The macro `FRAME_DSTN lead S` (R109). -/
def frameDstnLines (L : Bool) (lead S : List Byte) : List Line :=
  .fs true :: .fs false :: samplesLines L lead ++ samplesLines L S

/-- CAP takes steps until it is in a stuck condition, at most `fuel` of them (R109). -/
def quietCap : Nat → State → Result
  | 0, s => .next s
  | fuel + 1, s =>
    match s.capStuck with
    | some _ => .next s
    | none =>
      match runMove .cap s with
      | .next t => quietCap fuel t
      | .fault f => .fault f
      | .refused r => .refused r

/-- FEED takes steps until it is in a stuck condition, at most `fuel` of them (R109). -/
def quietFeed : Nat → State → Result
  | 0, s => .next s
  | fuel + 1, s =>
    match s.feedStuck with
    | some _ => .next s
    | none =>
      match runMove .feed s with
      | .next t => quietFeed fuel t
      | .fault f => .fault f
      | .refused r => .refused r

/-- One script line under the quiescent schedule: the line, then CAP, then FEED (R109). -/
def runLine (fuel : Nat) (l : Line) (s : State) : Result :=
  match runMove (l.toMove s) s with
  | .next t =>
    match quietCap fuel t with
    | .next u => quietFeed fuel u
    | .fault f => .fault f
    | .refused r => .refused r
  | .fault f => .fault f
  | .refused r => .refused r

/-- A stimulus script under the quiescent schedule (R109). -/
def runLines (fuel : Nat) : List Line → State → Result
  | [], s => .next s
  | l :: ls, s =>
    match runLine fuel l s with
    | .next t => runLines fuel ls t
    | .fault f => .fault f
    | .refused r => .refused r

end Sys2Proof.Machine
end

