-- ==== Sys2Proof/Safety.lean ====
section
/-!
DEFINITION. What a good state of the block is, in the terms claims use: the structural invariant,
the invariants that tie the memories to the sample stream, the shape of the event trace, and the
named premises a claim may assume of the environment (R262 to R266).
-/

namespace Sys2Proof.Machine

/-! ## The configuration a strap code gives (R96) -/

/-- The profile of a strap code (R96). -/
def profileOf (code : BitVec 2) : ProfileTag :=
  match code.toNat with
  | 0 => .a
  | 1 => .b
  | 2 => .c
  | _ => .none

/-- The pin table of a strap code; code 3 keeps the zero table (R96, R124). -/
def tableOf (par : Params) (code : BitVec 2) : PinTable :=
  match code.toNat with
  | 0 => par.pinTable[0]
  | 1 => par.pinTable[1]
  | 2 => par.pinTable[2]
  | _ => PinTable.zero

/-- The configuration registers hold what `BOOT_RESOLVE` computes from `strap_code` (R21 to R27). -/
def State.Configured (s : State) : Prop :=
  s.profileTag = profileOf s.strapCode ∧
  s.pin = tableOf s.par s.strapCode ∧
  s.mask = masksOf s.pin ∧
  s.mode = modeOfCode s.par s.strapCode ∧
  s.cfgUnrecognised = decide (s.strapCode = 3#2)

/-- The configuration registers R57 gives a reset value, before `BOOT_RESOLVE`. -/
def State.Unconfigured (s : State) : Prop :=
  s.strapCode = 0#2 ∧ s.profileTag = .none ∧ s.pin = PinTable.zero ∧ s.cfgUnrecognised = false

/-! ## The structural invariant -/

/-- CAP is in one of the states of `publish_from` after its selection (R172 to R174). -/
def assembling : CapState → Bool
  | .asmZero => true
  | .asmCopy => true
  | .asmPublish => true
  | _ => false

/-- FEED is between its acquire and its submit (R48). -/
def holdsBlock : FeedState → Bool
  | .readPtr => true
  | .readEncode => true
  | .submit => true
  | _ => false

/-- Each of the places a handle can be in, one after another (R53). -/
def State.handles (s : State) : List Nat := s.freeQ ++ s.validQ ++ s.fblk.toList ++ s.sinkHeld

/-- The structural invariant of the block. -/
structure State.Inv (s : State) : Prop where
  /-- the parameters meet R9 -/
  parWf : s.par.WellFormed
  /-- every turn of the script is a move of an agent, BUS, SINK or RESET -/
  script : ∀ t ∈ s.script, ∃ m, t = Turn.move m
  /-- the configuration is the reset one until `BOOT_RESOLVE` and its result ever after (R27) -/
  config : if s.capState = .bootResolve then s.Unconfigured else s.Configured
  /-- no pair of `cap_state` and `mode` that R106 calls unreachable -/
  pair : impossiblePair s.capState s.mode = false
  /-- `PINS` and the masks are values of `N_PINS` bits (R24, R40) -/
  pinsWithin : s.pins < 2 ^ s.par.nPins
  maskWithin : ∀ (k : Nat) (hk : k < 8), s.mask[k] < 2 ^ s.par.nPins
  /-- the counters are in their ranges (R32 to R36, R45, R47) -/
  dCnt : s.dCnt ≤ s.par.dstnLeadDiscard
  dCntBelow : s.capState = .discardLead → s.dCnt < s.par.dstnLeadDiscard
  y : s.y < Config.halfH
  col : s.col < Config.bytesPerRow
  i : s.i < Config.frameBytes
  zo : s.zo < Config.slotBytes
  o : s.o < Config.frameBytes
  p : s.p < Config.nPlanes
  fy : s.fy < Config.height
  fch : s.fch < Config.nPlanes
  fb : s.fb < Config.bytesPerRow
  /-- the memories are canonical and inside their spaces (R60, R68) -/
  rawWf : Memory.wf s.rawFrame
  rawWithin : Memory.Within Config.frameBytes s.rawFrame
  slot0Wf : Memory.wf s.slot0
  slot0Within : Memory.Within Config.slotBytes s.slot0
  slot1Wf : Memory.wf s.slot1
  slot1Within : Memory.Within Config.slotBytes s.slot1
  payloadWf : Sparse.Canonical s.payload
  payloadWithin : ∀ e ∈ s.payload, e.1 < 3 * s.par.nBlocks
  /-- while CAP assembles, it writes the slot that is not published (R176) -/
  staging : assembling s.capState = true → s.stg = 1 - s.displayPointer
  /-- FEED holds a handle exactly between its acquire and its submit (R48) -/
  holds : s.fblk.isSome = holdsBlock s.feedState
  /-- every handle is in exactly one place (R53) -/
  handles : s.handles.Perm (List.range s.par.nBlocks)
  /-- the set of held handles is in its canonical form -/
  sinkRising : s.sinkHeld.Pairwise (· < ·)
  /-- the queues are bounded (R50, R51) -/
  freeBound : s.freeQ.length ≤ s.par.freeCap
  validBound : s.validQ.length ≤ s.par.validCap

/-! ## What the memories hold -/

/-- RawFrame holds, pair by pair, the reconstruction of the samples of the pass so far (R145 to
R147). -/
def State.PairsStored (s : State) (n : Nat) : Prop :=
  ∀ k < n,
    s.rawByte (topOffset (k / Config.bytesPerRow) (k % Config.bytesPerRow)) =
      topByte (sampleAt s.stream (s.par.dstnLeadDiscard + 2 * k))
        (sampleAt s.stream (s.par.dstnLeadDiscard + 2 * k + 1)) ∧
    s.rawByte (bottomOffset (k / Config.bytesPerRow) (k % Config.bytesPerRow)) =
      bottomByte (sampleAt s.stream (s.par.dstnLeadDiscard + 2 * k))
        (sampleAt s.stream (s.par.dstnLeadDiscard + 2 * k + 1))

/-- RawFrame is the frame of the whole stream of its pass, by the closed forms (R149, R164). -/
def State.FrameComplete (s : State) : Prop :=
  s.stream.length =
    (match s.mode with
      | .dstn => s.par.dstnLeadDiscard + Config.dstnSamples
      | .tft => Config.frameBytes) ∧
  ∀ off < Config.frameBytes, s.rawByte off = frameByte s.mode s.par.dstnLeadDiscard s.stream off

/-- RawFrame as a function of the sample stream, in every control state of a pass and of the
assembly after it (R79, R128, R149, R152, R164). -/
def State.CaptureData (s : State) : Prop :=
  match s.capState with
  | .bootResolve => True
  | .waitFrameHigh => True
  | .waitFrameLow => True
  | .discardLead => s.stream.length = s.dCnt
  | .rowCapture =>
    s.stream.length = s.par.dstnLeadDiscard + 2 * (s.y * Config.bytesPerRow + s.col) +
      (if s.phase then 1 else 0) ∧
    (s.phase = true → s.s0 = sampleAt s.stream
      (s.par.dstnLeadDiscard + 2 * (s.y * Config.bytesPerRow + s.col))) ∧
    s.PairsStored (s.y * Config.bytesPerRow + s.col)
  | .seqCapture => s.stream.length = s.i ∧ ∀ n < s.i, s.rawByte n = sampleAt s.stream n
  | .done => s.FrameComplete
  | .asmSelect => s.FrameComplete
  | .asmZero => s.FrameComplete
  | .asmCopy => s.FrameComplete
  | .asmPublish => s.FrameComplete

/-- The staging slot as `publish_from` fills it (R172, R173, R175): zeroed from the front, then copied
in the order planes inner, offsets outer, the bytes not yet copied still 0. -/
def State.AssemblyData (s : State) : Prop :=
  match s.capState with
  | .asmZero => ∀ off < s.zo, s.slotByte s.stg off = 0#8
  | .asmCopy => ∀ n < Config.slotBytes, s.slotByte s.stg (planeOffset (n % 3) (n / 3)) =
      if n < 3 * s.o + s.p then s.rawByte (n / 3) else 0#8
  | .asmPublish => ∀ p < Config.nPlanes, ∀ off < Config.frameBytes,
      s.slotByte s.stg (planeOffset p off) = s.rawByte off
  | _ => True

/-- Something has been published since reset. -/
def State.HasPublished (s : State) : Prop := ∃ k, Event.pub k ∈ s.trace

/-- The three planes of the published slot are equal, once something is published (R175). -/
def State.PlanesEqual (s : State) : Prop :=
  s.HasPublished → ∀ p < Config.nPlanes, ∀ off < Config.frameBytes,
    s.slotByte s.displayPointer (planeOffset p off) = s.slotByte s.displayPointer off

/-- The bytes of the slices collected so far are those of the row in slot `fptr` (R189, R190). -/
def State.SliceData (s : State) : Prop :=
  s.feedState = .readEncode →
    (∀ c < s.fch, ∀ (b : Nat) (hb : b < Config.bytesPerRow),
      (s.sliceOf c)[b] = s.rowSliceByte s.fptr c s.fy b) ∧
    (∀ (b : Nat) (hb : b < Config.bytesPerRow), b < s.fb →
      (s.sliceOf s.fch)[b] = s.rowSliceByte s.fptr s.fch s.fy b)

/-! ## The event trace -/

/-- A `PUB` event. -/
def Event.isPub : Event → Bool
  | .pub _ => true
  | _ => false

/-- A `SUB` event. -/
def Event.isSub : Event → Bool
  | .sub _ => true
  | _ => false

/-- An `ACQ` event. -/
def Event.isAcq : Event → Bool
  | .acq _ => true
  | _ => false

/-- The events of FEED, what the block shows to the outside (R15). -/
def State.observed (s : State) : List Event := s.trace.filter (fun e => !e.isPub)

/-- The five events of one output row (R193). -/
def rowEvents (h : Nat) (x0 x1 x2 : Slice) : List Event :=
  [.acq h, .enc h 0 x0, .enc h 1 x1, .enc h 2 x2, .sub h]

/-- The events of a finished row, from its handle and slices. -/
def rowOf (r : Nat × Slice × Slice × Slice) : List Event := rowEvents r.1 r.2.1 r.2.2.1 r.2.2.2

/-- The first `n` of the three `ENC` events of the row in progress. -/
def State.encoded (s : State) (h n : Nat) : List Event :=
  (List.range n).map fun c => .enc h c (s.sliceOf c)

/-- The events the row in progress has emitted so far (R188 to R191). -/
def State.partialRow (s : State) : List Event :=
  match s.fblk with
  | none => []
  | some h => match s.feedState with
    | .readEncode => .acq h :: s.encoded h s.fch
    | .submit => .acq h :: s.encoded h 3
    | _ => [.acq h]

/-- What the block has shown is a sequence of whole rows and the row in progress (R193). -/
def State.TraceShape (s : State) : Prop :=
  ∃ rows : List (Nat × Slice × Slice × Slice),
    s.observed = rows.flatMap rowOf ++ s.partialRow

/-- The output row is the number of submitted rows modulo `H`, and acquires and submits alternate
(R192, R194). -/
def State.RowCount (s : State) : Prop :=
  s.trace.countP Event.isAcq = s.trace.countP Event.isSub + s.fblk.toList.length ∧
  s.trace.countP Event.isSub % Config.height =
    if s.feedState = .advance then (s.fy + 1) % Config.height else s.fy

/-- `DisplayPointer` after the `n`-th publish since reset is `n mod 2` (R174). -/
def State.PointerParity (s : State) : Prop :=
  s.displayPointer.val = s.trace.countP Event.isPub % 2

/-! ## Runs and the named premises (R262 to R266, log entry 27) -/

/-- A move a run has completed, with the states before and after it. -/
structure Took where
  before : State
  move : Move
  after : State
deriving DecidableEq, Repr

/-- The moves a run completes, in order. -/
def along : List Move → State → List Took
  | [], _ => []
  | m :: ms, s =>
    match runMove m s with
    | .next t => ⟨s, m, t⟩ :: along ms t
    | _ => []

/-- Move `n` of an infinite run `run` under an infinite schedule `sched`. -/
def tookAt (sched : Nat → Move) (run : Nat → State) (n : Nat) : Took :=
  ⟨run n, sched n, run (n + 1)⟩

/-- The first `n` moves of an infinite run. -/
def prefixOf (sched : Nat → Move) (run : Nat → State) (n : Nat) : List Took :=
  (List.range n).map (tookAt sched run)

/-- An infinite run: each move of the schedule takes one state to the next. -/
def IsRun (sched : Nat → Move) (run : Nat → State) : Prop :=
  ∀ n, runMove (sched n) (run n) = .next (run (n + 1))

/-- Every finite part of an infinite run, from its start on, has the property. -/
def EveryPrefix (P : List Took → Prop) (sched : Nat → Move) (run : Nat → State) : Prop :=
  ∀ n, P (prefixOf sched run n)

/-- The move is a step of BUS. -/
def Move.isDrive : Move → Bool
  | .busDrive _ _ => true
  | _ => false

/-- A row read of FEED is in flight on slot `fptr` (R256): from the pointer read to the last byte of
the row, with `PER_PASS` of the output pass. -/
def State.rowReadInFlight (s : State) : Bool :=
  match s.par.ptrSnapshot with
  | .perRow => decide (s.feedState = .readEncode)
  | .perPass =>
    decide (s.feedState = .readEncode) ||
      (decide (s.feedState = .submit) && decide (s.fy < Config.height - 1)) ||
      (decide (s.feedState = .advance) && decide (s.fy < Config.height - 1)) ||
      (decide (s.feedState = .acquire) && decide (0 < s.fy))

/-- Premise T1 at a move of CAP from one state: it is no `ASM_ZERO` or `ASM_COPY` step on the slot of a
row read in flight (R265). -/
def State.T1 (s : State) : Prop :=
  s.rowReadInFlight = true → (s.capState = .asmZero ∨ s.capState = .asmCopy) → s.stg ≠ s.fptr

/-- Premise T1 of the moves of a run (R265). -/
def RowReadsFresh (xs : List Took) : Prop := ∀ x ∈ xs, x.move = .cap → x.before.T1

/-- Premise T1 of the run of a list of moves; of an infinite run it is `EveryPrefix RowReadsFresh`. -/
def PremiseT1 (ms : List Move) (s : State) : Prop := RowReadsFresh (along ms s)

/-- CAP is in a state that polls a signal (R129). -/
def State.polls (s : State) (sig : Signal) : Bool :=
  match sig with
  | .fsync => decide (s.capState = .waitFrameHigh) || decide (s.capState = .waitFrameLow)
  | .pclk => s.capState.sampling

/-- A move of CAP polls the pin of a signal (R129). -/
def State.pollsNow (s : State) (sig : Signal) : Bool :=
  decide (s.awaited.map (fun a => s.signalPin a.1) = some (s.signalPin sig))

/-- While CAP is in a state that polls a signal, BUS ends no level of it that CAP has not polled
(R262). `seen` says whether CAP has polled the present level; a change of the level, `RESET`, and the
new pin table of `BOOT_RESOLVE` each begin a level that nothing has polled. -/
def levelsSeen (sig : Signal) : Bool → List Took → Bool
  | _, [] => true
  | seen, x :: rest =>
    match x.move with
    | .cap =>
      levelsSeen sig (x.before.capState != .bootResolve && (seen || x.before.pollsNow sig)) rest
    | .reset => levelsSeen sig false rest
    | .busDrive _ _ =>
      if x.after.level sig = x.before.level sig then levelsSeen sig seen rest
      else (seen || !x.before.polls sig) && levelsSeen sig false rest
    | _ => levelsSeen sig seen rest

/-- Premise BD1, phase visibility, of the moves of a run (R262). The levels present when the run starts
count as not yet polled, which is so of every run from `RESET` (log entry 27). -/
def PhasesVisible (xs : List Took) : Prop :=
  levelsSeen .pclk false xs = true ∧ levelsSeen .fsync false xs = true

/-- Premise BD1 of the run of a list of moves; of an infinite run it is `EveryPrefix PhasesVisible`. -/
def PremiseBD1 (ms : List Move) (s : State) : Prop := PhasesVisible (along ms s)

/-- BUS has set the clock to `L` for a period whose `G_READ` is still to come: CAP has seen the clock
away from `L` and it is at `L`, or CAP has seen it at `L` (R127, R263). -/
def State.readDue (s : State) : Bool :=
  s.capState.sampling &&
    match s.gate with
    | .arm => false
    | .fire => s.level .pclk == s.par.pclkSampleLevel
    | .read => true

/-- Premise BD2, data hold, of the moves of a run: from the instant BUS sets the clock to `L` until the
`G_READ` of that period, BUS changes no data pin, whatever it does to the clock (R263). -/
def DataHeld (xs : List Took) : Prop :=
  ∀ x ∈ xs, x.move.isDrive = true → x.before.readDue = true →
    x.after.pins &&& dataPins x.after.pin = x.before.pins &&& dataPins x.before.pin

/-- Premise BD2 of the run of a list of moves; of an infinite run it is `EveryPrefix DataHeld`. -/
def PremiseBD2 (ms : List Move) (s : State) : Prop := DataHeld (along ms s)

/-- BUS presents the frame-sync event of the mode to a CAP that waits for it (R98): TFT the rise, DSTN
the fall after CAP has seen the pin at 1. -/
def Took.frameSync (x : Took) : Bool :=
  x.move.isDrive &&
    match x.before.capState, x.before.mode with
    | .waitFrameHigh, .tft => !x.before.level .fsync && x.after.level .fsync
    | .waitFrameLow, .dstn => x.before.level .fsync && !x.after.level .fsync
    | _, _ => false

/-- BUS completes a clock period: it brings the clock to `L`, whatever CAP is doing. -/
def Took.period (x : Took) : Bool :=
  x.move.isDrive && (x.before.level .pclk != x.before.par.pclkSampleLevel) &&
    (x.after.level .pclk == x.before.par.pclkSampleLevel)

/-- CAP enters `WAIT_FRAME_HIGH`. -/
def Took.entersWait (x : Took) : Bool :=
  x.before.capState != .waitFrameHigh && x.after.capState == .waitFrameHigh

/-- How many samples a pass discards, and how many it stores (R98). -/
def passLengths (m : Mode) (lead : Nat) : Nat × Nat :=
  match m with
  | .dstn => (lead, Config.dstnSamples)
  | .tft => (0, Config.frameBytes)

/-- Where BUS stands in what it sends: `due` holds the bytes of the clock periods still to come in the
present pass, `none` before its frame-sync event, and `next` numbers the frame that comes next. -/
structure Sending where
  due : Option (List Byte)
  next : Nat
deriving DecidableEq, Repr

/-- Before the first event. -/
def Sending.start : Sending := { due := none, next := 0 }

/-- One move of a run, BUS sending the frames `frames`, each a pair of lead samples and stored samples;
`none` where the move breaks premise BD3 (R264). From each entry of CAP into `WAIT_FRAME_HIGH` to the
next: the pin is at 0 at the entry, BUS presents the event while CAP waits, and from the event on the
clock periods of BUS are those of the next frame, none of them while CAP is not sampling, and none left
over or extra when CAP enters the state again. R264 does not speak of RESET: the model drops the periods
a RESET cuts off, leaves periods free until the next event, and goes on to the next frame (DESIGN
CHOICE, safe, log entry 35). -/
def Sending.after (frames : Nat → List Byte × List Byte) (b : Sending) (x : Took) : Option Sending :=
  if x.entersWait then
    if x.after.level .fsync = false ∧ b.due.getD [] = [] then some { b with due := none } else none
  else if x.move = .reset then some { b with due := none }
  else if b.due = none ∧ x.frameSync = true then
    let f := frames b.next
    if (f.1.length, f.2.length) = passLengths x.before.mode x.before.par.dstnLeadDiscard then
      some { due := some (f.1 ++ f.2), next := b.next + 1 }
    else none
  else if x.period then
    match b.due with
    | none => some b
    | some [] => none
    | some (v :: rest) =>
      if x.before.capState.sampling = true ∧ x.after.busByte = v then some { b with due := some rest }
      else none
  else some b

/-- The moves of a run, one after another; `none` where one breaks premise BD3. -/
def Sending.afterAll (frames : Nat → List Byte × List Byte) : Sending → List Took → Option Sending
  | b, [] => some b
  | b, x :: rest =>
    match b.after frames x with
    | none => none
    | some c => c.afterAll frames rest

/-- Premise BD3, frame integrity, of the moves of a finite run: BUS has presented nothing but the events
and the periods of `frames`, in order (R264). Where the run starts with CAP already in
`WAIT_FRAME_HIGH` the start counts as the entry, and the pin is asked to be at 0 there; R264 speaks of
the entry only (DESIGN CHOICE, unsafe, log entry 33). -/
def FramesIntact (frames : Nat → List Byte × List Byte) (xs : List Took) : Prop :=
  (∀ x ∈ xs.head?, x.before.capState = .waitFrameHigh → x.before.level .fsync = false) ∧
  (Sending.start.afterAll frames xs).isSome = true

/-- Premise BD3 of the run of a list of moves. That BUS goes on sending is no property of a finite run:
`PremiseBD3Run` asks it. -/
def PremiseBD3 (frames : Nat → List Byte × List Byte) (ms : List Move) (s : State) : Prop :=
  FramesIntact frames (along ms s)

/-- BUS has something still to present (R264): the frame-sync event to a CAP that waits for it, or the
clock periods of a frame whose event it has presented. -/
def Sending.owes (b : Sending) (s : State) : Bool :=
  match b.due with
  | none => decide (s.capState = .waitFrameHigh) || decide (s.capState = .waitFrameLow)
  | some bytes => !bytes.isEmpty

/-- What BUS owes after the first `n` moves of an infinite run is settled later: it has presented the
event or a period, or a RESET has ended the pass. -/
def Settled (frames : Nat → List Byte × List Byte) (sched : Nat → Move) (run : Nat → State)
    (b : Sending) (n : Nat) : Prop :=
  ∃ k > n, ∀ c, Sending.start.afterAll frames (prefixOf sched run k) = some c →
    c ≠ b ∨ c.owes (run k) = false

/-- From some move on CAP is not stuck and yet is never given a move. -/
def CapHeldUp (sched : Nat → Move) (run : Nat → State) : Prop :=
  ∃ n, ∀ k ≥ n, sched k ≠ .cap ∧ (run k).capStuck = none

/-- BUS goes on: each debt is settled, so that no event and no period is missing, however often BUS
changes the pins meanwhile. Only where CAP is held up for ever with its level before it is BUS not
asked to go on, since no period may fall while CAP is not sampling (log entry 27). -/
def BusGoesOn (frames : Nat → List Byte × List Byte) (sched : Nat → Move) (run : Nat → State) : Prop :=
  CapHeldUp sched run ∨
  ∀ n b, Sending.start.afterAll frames (prefixOf sched run n) = some b → b.owes (run n) = true →
    Settled frames sched run b n

/-- Premise BD3 of an infinite run: BUS presents the frame-sync event of each pass and then every clock
period of one frame, none extra and none missing (R264, R225, R272). -/
def PremiseBD3Run (frames : Nat → List Byte × List Byte) (sched : Nat → Move) (run : Nat → State) :
    Prop :=
  IsRun sched run ∧ EveryPrefix (FramesIntact frames) sched run ∧ BusGoesOn frames sched run

/-- Weak fairness (R14): a step that stays enabled is taken. -/
def WeaklyFair (enabled taken : Nat → Prop) : Prop :=
  ∀ n, (∀ k ≥ n, enabled k) → ∃ k ≥ n, taken k

/-- Premise SK1 with the fairness of the scheduler, of an infinite run (R14, R266). CAP always has a
step, a poll being enabled whatever it finds (R212). `SINK_RELEASE_FREE` is one step with a free choice
of the handle (R227), so its fairness asks that some held handle be released and not each of them; the
rules do not say which is meant (DEDUCED, safe, log entry 27). R266 does not say whether RESET may
recur without bound; the model takes it that from some move on there is none, since otherwise FEED need
not emit rows without end as R266 says (DESIGN CHOICE, unsafe, log entry 32). -/
def PremiseSK1 (sched : Nat → Move) (run : Nat → State) : Prop :=
  IsRun sched run ∧
  WeaklyFair (fun _ => True) (fun k => sched k = .cap) ∧
  WeaklyFair (fun k => (run k).feedStuck = none) (fun k => sched k = .feed) ∧
  WeaklyFair (fun k => (run k).takeGuard = true) (fun k => sched k = .sinkTake) ∧
  WeaklyFair (fun k => (run k).releaseGuard = true)
    (fun k => ∃ h ∈ (run k).sinkHeld, sched k = .sinkRelease h) ∧
  ∃ n, ∀ k ≥ n, sched k ≠ .reset

end Sys2Proof.Machine
end

