-- ==== Sys2Proof/Certificates/Slice0/Obligations.lean ====
section
/-!
DEFINITION. The statements for the provers. Each names the rule of spec/ it formalises. A statement
of an operation's result is an equation with its next state, so it says both that the operation
completes and everything it leaves unchanged; where an operation stores to a memory the statement
speaks of every byte through the model's read of one byte.
-/

open Sys2Proof Sys2Proof.Machine

/-! ## Words and selection -/

/-- The row a row's own word selects is that row (R110, R104, R105; the words of the rows selected
inside others carry their level as log entry 9 says). -/
def Obligations.DecodeOfEncodeIsTheRow : Prop :=
  ∀ i : Instr, decode (encode i) = .ok i

/-- Words written out from R104, R105 and R110 select the rows they stand for. -/
def Obligations.WrittenWordsSelectTheirRows : Prop :=
  decode (.csel 0b00000000#8) = .ok .bootResolve ∧
  decode (.csel 0b00010000#8) = .ok .dWaitFrameHigh ∧
  decode (.csel 0b00011000#8) = .ok .tWaitFrameHigh ∧
  decode (.csel 0b01000100#8) = .ok .dRowCaptureS0 ∧
  decode (.csel 0b01000101#8) = .ok .dRowCaptureS1 ∧
  decode (.csel 0b10010000#8) = .ok .asmCopy ∧
  decode (.inner .sampleByte 0b01011100#8) = .ok .sampleByte ∧
  decode (.fsel 0b010#3) = .ok .fReadEncode ∧
  decode (.ssel .take 0b10#2) = .ok .sinkTakeValid ∧
  decode (.dataPair 0b1010010100111100#16) = .ok (.fPair 0xA5#8 0x3C#8)

/-- The csel word of a control state unpacks to it and selects the operation R102 gives it. -/
def Obligations.CselWordSelectsByControlState : Prop :=
  ∀ (c : CapState) (m : Mode) (g : Gate) (ph : Bool),
    unpackCsel (cselWord c m g ph) = .ok (c, m, g, ph) ∧
    decode (.csel (cselWord c m g ph)) = .ok (match c, m with
      | .bootResolve, _ => .bootResolve
      | .waitFrameHigh, .dstn => .dWaitFrameHigh
      | .waitFrameHigh, .tft => .tWaitFrameHigh
      | .waitFrameLow, _ => .dWaitFrameLow
      | .discardLead, _ => .dDiscardLead
      | .rowCapture, _ => if ph then .dRowCaptureS1 else .dRowCaptureS0
      | .seqCapture, _ => .tSeqCapture
      | .done, .dstn => .dDone
      | .done, .tft => .tDone
      | .asmSelect, _ => .asmSelect
      | .asmZero, _ => .asmZero
      | .asmCopy, _ => .asmCopy
      | .asmPublish, _ => .asmPublish)

/-- A row of the opcode table is selected exactly by the words its match, mask and constraint give
(R110), among the words without a reserved gate code (R106): the CSEL rows, the five rows selected
inside them (rows 2 to 6 of R102), the FSEL rows and the GUARD rows. Which signal and level a wait polls
is that of the enclosing operation, `L` standing for `PCLK_SAMPLE_LEVEL` (R127, R129, R141, R142,
R161; log entry 9). -/
def Obligations.RowsAreSelectedByMatchAndMask : Prop :=
  (∀ w : BitVec 8, w &&& 0x06#8 ≠ 0x06#8 →
    (decode (.csel w) = .ok .bootResolve ↔ w &&& 0xF0#8 = 0x00#8) ∧
    (decode (.csel w) = .ok .dWaitFrameHigh ↔ w &&& 0xF8#8 = 0x10#8) ∧
    (decode (.csel w) = .ok .dWaitFrameLow ↔ w &&& 0xF0#8 = 0x20#8) ∧
    (decode (.csel w) = .ok .dDiscardLead ↔ w &&& 0xF0#8 = 0x30#8) ∧
    (decode (.csel w) = .ok .dRowCaptureS0 ↔ w &&& 0xF1#8 = 0x40#8) ∧
    (decode (.csel w) = .ok .dRowCaptureS1 ↔ w &&& 0xF1#8 = 0x41#8) ∧
    (decode (.csel w) = .ok .dDone ↔ w &&& 0xF8#8 = 0x60#8) ∧
    (decode (.csel w) = .ok .tWaitFrameHigh ↔ w &&& 0xF8#8 = 0x18#8) ∧
    (decode (.csel w) = .ok .tSeqCapture ↔ w &&& 0xF0#8 = 0x50#8) ∧
    (decode (.csel w) = .ok .tDone ↔ w &&& 0xF8#8 = 0x68#8) ∧
    (decode (.csel w) = .ok .asmSelect ↔ w &&& 0xF0#8 = 0x70#8) ∧
    (decode (.csel w) = .ok .asmZero ↔ w &&& 0xF0#8 = 0x80#8) ∧
    (decode (.csel w) = .ok .asmCopy ↔ w &&& 0xF0#8 = 0x90#8) ∧
    (decode (.csel w) = .ok .asmPublish ↔ w &&& 0xF0#8 = 0xA0#8)) ∧
  (∀ (w : BitVec 8) (sampling : Prop) (i : Instr), w &&& 0x06#8 ≠ 0x06#8 →
    sampling = (w &&& 0xF0#8 = 0x30#8 ∨ w &&& 0xF0#8 = 0x40#8 ∨ w &&& 0xF0#8 = 0x50#8) →
    (decode (.inner .buildMasks w) = .ok i ↔ i = .buildMasks ∧ w &&& 0xF0#8 = 0x00#8) ∧
    (decode (.inner .selectMode w) = .ok i ↔ i = .selectMode ∧ w &&& 0xF0#8 = 0x00#8) ∧
    (decode (.inner .sampleByte w) = .ok i ↔
      i = .sampleByte ∧ sampling ∧ w &&& 0x06#8 = 0x04#8) ∧
    (decode (.inner .gatedSample w) = .ok i ↔ i = .gatedSample ∧ sampling) ∧
    (∀ L : Bool, decode (.inner (.waitForLevel L) w) = .ok i ↔
      (i = .waitForLevel .fsync true ∧ w &&& 0xF0#8 = 0x10#8) ∨
      (i = .waitForLevel .fsync false ∧ w &&& 0xF0#8 = 0x20#8) ∨
      (i = .waitForLevel .pclk (!L) ∧ sampling ∧ w &&& 0x06#8 = 0x00#8) ∨
      (i = .waitForLevel .pclk L ∧ sampling ∧ w &&& 0x06#8 = 0x02#8))) ∧
  (∀ w : BitVec 3,
    (decode (.fsel w) = .ok .fAcquire ↔ w = 0#3) ∧
    (decode (.fsel w) = .ok .fReadPtr ↔ w = 1#3) ∧
    (decode (.fsel w) = .ok .fReadEncode ↔ w = 2#3) ∧
    (decode (.fsel w) = .ok .fSubmit ↔ w = 3#3) ∧
    (decode (.fsel w) = .ok .fAdvance ↔ w = 4#3)) ∧
  (∀ (w : BitVec 2) (h : Nat),
    (decode (.ssel .take w) = .ok .sinkTakeValid ↔ w &&& 2#2 = 2#2) ∧
    (decode (.ssel (.release h) w) = .ok (.sinkReleaseFree h) ↔ w &&& 1#2 = 1#2))

/-- The reserved codes of R104 and R105 select no row, and each is rejected by its name (R106). -/
def Obligations.ReservedCodesSelectNoRow : Prop :=
  (∀ w : BitVec 8, 11 ≤ w.toNat / 16 → decode (.csel w) = .error .reservedCapState) ∧
  (∀ w : BitVec 8, w.toNat / 16 < 11 → w.toNat / 2 % 4 = 3 →
    decode (.csel w) = .error .reservedGate) ∧
  (∀ w : BitVec 3, 5 ≤ w.toNat → decode (.fsel w) = .error .reservedFeedState)

/-! ## The step -/

/-- With a script, a step takes its next move; with an empty one, the next move of the free
schedule (R14, R56; log entry 1). -/
def Obligations.StepTakesTheNextMove : Prop :=
  (∀ (s : State) (m : Move) (rest : List Turn), s.script = .move m :: rest →
    step s = runMove m { s with script := rest }) ∧
  (∀ s : State, s.script = [] →
    step s = runMove (Config.schedule s.tick) { s with tick := s.tick + 1 })

/-- A step runs the row the selector word of the moving agent selects (R102, R110). That the move to
make stands at the head of a script is the model's choice of log entry 1, and the last clause, that a
word placed from outside runs its row, is the model's choice of log entry 10: no rule gives them. -/
def Obligations.StepRunsTheSelectedRow : Prop :=
  ∀ (s : State) (rest : List Turn) (i : Instr),
    (s.script = .move .cap :: rest → impossiblePair s.capState s.mode = false →
      decode (.csel s.csel) = .ok i → step s = exec i { s with script := rest }) ∧
    (s.script = .move .feed :: rest →
      decode (.fsel s.fsel) = .ok i → step s = exec i { s with script := rest }) ∧
    (s.script = .move .sinkTake :: rest →
      decode (.ssel .take s.ssel) = .ok i → step s = exec i { s with script := rest }) ∧
    (∀ h, s.script = .move (.sinkRelease h) :: rest →
      decode (.ssel (.release h) s.ssel) = .ok i → step s = exec i { s with script := rest }) ∧
    (∀ sel, s.script = .placed sel :: rest →
      decode sel = .ok i → step s = exec i { s with script := rest })

/-- The combinations of R106(c), and only they, are refused at a move of CAP. -/
def Obligations.ImpossibleCombinationsAreRefused : Prop :=
  ∀ s : State,
    ((s.mode = .tft ∧ (s.capState = .waitFrameLow ∨ s.capState = .discardLead ∨
        s.capState = .rowCapture)) ∨ (s.mode = .dstn ∧ s.capState = .seqCapture)) ↔
      runMove .cap s = .refused (.impossibleCombination s.capState s.mode)

/-! ## Reset and the environment -/

/-- `RESET`, in any state, gives every piece of state the value R57 states for it, in one step;
after it CAP is in `BOOT_RESOLVE` and FEED in `F_ACQUIRE` (R240). The last two clauses are the model's
choices: that the pins keep their levels is log entry 19 (R57 says only that the environment drives
them), and that the parameters of R9 stand in the state and keep their values is log entry 5. -/
def Obligations.ResetGivesTheResetValues : Prop :=
  ∀ s : State, ∃ t, runMove .reset s = .next t ∧
    t.strapCode = 0#2 ∧ t.profileTag = .none ∧
    (∀ (k : Nat) (hk : k < 8), t.pin.d[k] = 0) ∧ t.pin.pclk = 0 ∧ t.pin.fsync = 0 ∧
    t.pin.lsync = none ∧ t.cfgUnrecognised = false ∧
    t.capState = .bootResolve ∧ t.gate = .arm ∧
    t.dCnt = 0 ∧ t.y = 0 ∧ t.col = 0 ∧ t.phase = false ∧ t.i = 0 ∧
    t.stg = 0 ∧ t.zo = 0 ∧ t.o = 0 ∧ t.p = 0 ∧ t.displayPointer = 0 ∧
    t.feedState = .acquire ∧ t.fy = 0 ∧ t.fch = 0 ∧ t.fb = 0 ∧ t.fblk = none ∧
    t.freeQ = List.range s.par.nBlocks ∧ t.validQ = [] ∧ t.sinkHeld = [] ∧
    t.pins = s.pins ∧ t.par = s.par

/-- The structural invariant holds after reset, for every admissible set of parameters and on the
board itself; so do the data and trace invariants. -/
def Obligations.ResetMeetsTheInvariants : Prop :=
  State.reset.Inv ∧
  ∀ par : Params,
    (par.WellFormed → (State.resetWith par).Inv) ∧
    (State.resetWith par).CaptureData ∧ (State.resetWith par).AssemblyData ∧
    (State.resetWith par).PlanesEqual ∧ (State.resetWith par).SliceData ∧
    (State.resetWith par).TraceShape ∧ (State.resetWith par).RowCount ∧
    (State.resetWith par).PointerParity

/-- `BUS_DRIVE` sets any subset of the `N_PINS` pins to any levels and changes nothing else (R224). -/
def Obligations.BusDriveSetsTheChosenPins : Prop :=
  ∀ (s : State) (sel levels : PinWord), ∃ t, runMove (.busDrive sel levels) s = .next t ∧
    (∀ p < s.par.nPins, pinLevel t.pins p = if pinLevel sel p then pinLevel levels p
      else pinLevel s.pins p) ∧
    t.pins < 2 ^ s.par.nPins ∧ t = { s with pins := t.pins }

/-- The `DATA xx` line of R109 is the inverse of `SAMPLE_BYTE` on a profile whose identifiers are
mutually distinct. -/
def Obligations.DataLineIsSampledBack : Prop :=
  ∀ (s t : State) (b : Byte), s.pin.WellFormed → s.pin.Within s.par.nPins →
    s.mask = masksOf s.pin →
    runMove (Line.toMove s (.data b)) s = .next t → t.busByte = b

/-! ## BoardProfileResolver -/

/-- `BOOT_RESOLVE` (R121, with R95, R96, R122, R123): the whole next state. -/
def Obligations.BootResolveResult : Prop :=
  ∀ (s : State) (code : BitVec 2) (table : PinTable),
    code = BitVec.ofBool (!pinLevel s.pins s.par.strapPin1) ++
      BitVec.ofBool (!pinLevel s.pins s.par.strapPin0) →
    table = (if code = 0#2 then s.par.pinTable[0] else if code = 1#2 then s.par.pinTable[1]
      else if code = 2#2 then s.par.pinTable[2] else s.pin) →
    exec .bootResolve s = .next
      { s with
          strapCode := code
          profileTag := if code = 0#2 then .a else if code = 1#2 then .b
            else if code = 2#2 then .c else .none
          pin := table
          mask := masksOf table
          mode := s.par.modeOfCode[code.toNat]'code.isLt
          cfgUnrecognised := if code = 3#2 then true else s.cfgUnrecognised
          capState := .waitFrameHigh }

/-- `BUILD_MASKS` (R122): each mask has the one bit of its data pin, and nothing else changes; and
`SELECT_MODE` (R123). That these parts of `BOOT_RESOLVE` run as rows of their own is the model's
choice of log entry 11. -/
def Obligations.BuildMasksAndSelectModeResult : Prop :=
  ∀ s : State,
    (∃ t, exec .buildMasks s = .next t ∧ t = { s with mask := t.mask } ∧
      (∀ (k : Nat) (hk : k < 8), t.mask[k] = 1 <<< s.pin.d[k]) ∧
      (∀ (k : Nat) (hk : k < 8) (p : PinId), pinLevel t.mask[k] p = decide (p = s.pin.d[k]))) ∧
    exec .selectMode s =
      .next { s with mode := s.par.modeOfCode[s.strapCode.toNat]'s.strapCode.isLt }

/-- The formats F-STRAP and F-SAMPLE as rows: codes 0 to 2 give the row of R96's table, code 3 gives no
profile, sets the flag and leaves the pin table as it stands, which is the zero table of R96 after reset
(log entry 30), and the sample is held in the model's field `sample`. That the rows do so is the
model's choice of log entry 12. -/
def Obligations.StrapAndSampleFormatResult : Prop :=
  (∀ (s : State) (code : BitVec 2), exec (.fStrap code) s = .next
    { s with
        strapCode := code
        profileTag := profileOf code
        pin := if code = 3#2 then s.pin else tableOf s.par code
        mode := s.par.modeOfCode[code.toNat]'code.isLt
        cfgUnrecognised := if code = 3#2 then true else s.cfgUnrecognised }) ∧
  (∀ (s : State) (b : Byte), exec (.fSample b) s = .next { s with sample := b })

/-- Strap code 3 (R124): `BOOT_RESOLVE` of a block right after reset, with both straps at 0, leaves
every identifier 0 and every mask 1 and sets the flag; from then on both polls watch pin 0 and a
sample is `0xFF` or `0x00` by the level of pin 0. -/
def Obligations.StrapCodeThreeReadsPinZero : Prop :=
  ∀ s : State, s.Unconfigured → pinLevel s.pins s.par.strapPin0 = false →
    pinLevel s.pins s.par.strapPin1 = false →
    ∃ t, exec .bootResolve s = .next t ∧
      t.strapCode = 3#2 ∧ t.profileTag = .none ∧ t.cfgUnrecognised = true ∧
      (∀ (k : Nat) (hk : k < 8), t.pin.d[k] = 0) ∧ t.pin.pclk = 0 ∧ t.pin.fsync = 0 ∧
      t.pin.lsync = none ∧ (∀ (k : Nat) (hk : k < 8), t.mask[k] = 1) ∧
      t.mode = s.par.modeOfCode[3] ∧
      ∀ w : PinWord,
        ({ t with pins := w }.busByte = if pinLevel w 0 then 0xFF#8 else 0x00#8) ∧
        ∀ sig, { t with pins := w }.level sig = pinLevel w 0

/-- The configuration is immutable (R27, R243): no move but `RESET` and CAP's own `BOOT_RESOLVE` step
changes it, before boot or after it, and no move but `RESET` returns CAP to `BOOT_RESOLVE`. That the
parameters of R9 stand in the state and keep their values is the model's choice of log entry 5. -/
def Obligations.ConfigurationIsImmutableAfterBoot : Prop :=
  ∀ (s t : State) (m : Move), (m = .cap → s.capState ≠ .bootResolve) → m ≠ .reset →
    runMove m s = .next t →
    t.strapCode = s.strapCode ∧ t.profileTag = s.profileTag ∧ t.pin = s.pin ∧ t.mask = s.mask ∧
    t.mode = s.mode ∧ t.cfgUnrecognised = s.cfgUnrecognised ∧ t.par = s.par ∧
    (s.capState ≠ .bootResolve → t.capState ≠ .bootResolve)

/-! ## BusSampler -/

/-- `SAMPLE_BYTE` (R92, R125): bit `7-k` of the byte says whether the bulk word has a bit under
`mask.d[k]`; the byte is held in the model's field `sample` (log entry 11) and nothing else
changes. -/
def Obligations.SampleByteResult : Prop :=
  ∀ s : State, ∃ t, exec .sampleByte s = .next t ∧ t = { s with sample := t.sample } ∧
    ∀ (k : Nat) (hk : k < 8), t.sample.getLsbD (7 - k) = decide (s.pins &&& s.mask[k] ≠ 0)

/-- `WAIT_FOR_LEVEL` (R126): a poll that does not find the level changes nothing; one that finds the
level the enclosing operation waits for lets that operation go on; any other changes nothing. That
the primitive runs as a row of its own is the model's choice of log entry 11. -/
def Obligations.WaitForLevelResult : Prop :=
  ∀ (s : State) (sig : Signal) (lvl : Bool),
    (s.level sig ≠ lvl → exec (.waitForLevel sig lvl) s = .next s) ∧
    (s.level sig = lvl → s.awaited ≠ some (sig, lvl) → exec (.waitForLevel sig lvl) s = .next s) ∧
    (s.level sig = lvl → s.awaited = some (sig, lvl) → s.capState.sampling = true →
      exec (.waitForLevel sig lvl) s =
        .next { s with gate := if s.gate = .arm then .fire else .read }) ∧
    (s.level sig = lvl → s.awaited = some (sig, lvl) → s.capState = .waitFrameHigh →
      exec (.waitForLevel sig lvl) s = .next (match s.mode with
        | .dstn => { s with capState := .waitFrameLow }
        | .tft => { s with i := 0, gate := .arm, capState := .seqCapture, stream := [] })) ∧
    (s.level sig = lvl → s.awaited = some (sig, lvl) → s.capState = .waitFrameLow →
      exec (.waitForLevel sig lvl) s = .next (if 0 < s.par.dstnLeadDiscard
        then { s with gate := .arm, stream := [], dCnt := 0, capState := .discardLead }
        else { s with gate := .arm, stream := [], y := 0, col := 0, phase := false,
                      capState := .rowCapture }))

/-- `GATED_SAMPLE` (R127): the polling phases `G_ARM` and `G_FIRE`, in it and in the four operations
that enclose it; and `G_READ`, which in each sampling state reads the bus, arms the gate again and
delivers the byte to the operation that state selects. The fields `sample` and `stream` are the
model's bookkeeping of log entry 18. -/
def Obligations.GatedSampleResult : Prop :=
  (∀ (s : State) (i : Instr),
    i ∈ [Instr.gatedSample, .dDiscardLead, .dRowCaptureS0, .dRowCaptureS1, .tSeqCapture] →
    (s.gate = .arm → exec i s = .next (if s.level .pclk = !s.par.pclkSampleLevel
      then { s with gate := .fire } else s)) ∧
    (s.gate = .fire → exec i s = .next (if s.level .pclk = s.par.pclkSampleLevel
      then { s with gate := .read } else s))) ∧
  (∀ s : State, s.capState.sampling = true → s.gate = .read →
    s.col < Config.bytesPerRow → s.i < Config.frameBytes →
    ∃ t, exec .gatedSample s = .next t ∧ t.gate = .arm ∧ t.sample = s.busByte ∧
      t.stream = s.stream ++ [s.busByte] ∧
      exec .gatedSample s = exec (capOperation s.capState s.mode s.phase) s)

/-- The primitives are the steps of the operation that encloses them: where a state polls, the poll
is CAP's move, and where it samples, the clock-gated sample is CAP's move (R102, R126, R127). -/
def Obligations.PrimitivesAreTheEnclosingStep : Prop :=
  ∀ s : State, impossiblePair s.capState s.mode = false →
    (∀ sig lvl, s.awaited = some (sig, lvl) →
      exec (.waitForLevel sig lvl) s = runMove .cap s) ∧
    (s.capState.sampling = true → exec .gatedSample s = runMove .cap s)

/-! ## Capture -/

/-- The frame-sync waits `D_WAIT_FRAME_HIGH` (R141), `D_WAIT_FRAME_LOW` (R142) and
`T_WAIT_FRAME_HIGH` (R161, a level wait by R165): the level found, and not found. The stream of the
pass (R128), the model's bookkeeping of log entry 18, begins at the last two. -/
def Obligations.FrameSyncWaitResult : Prop :=
  ∀ s : State,
    exec .dWaitFrameHigh s =
      .next (if s.level .fsync = true then { s with capState := .waitFrameLow } else s) ∧
    exec .dWaitFrameLow s =
      .next (if s.level .fsync = false then
          (if 0 < s.par.dstnLeadDiscard
            then { s with gate := .arm, stream := [], dCnt := 0, capState := .discardLead }
            else { s with gate := .arm, stream := [], y := 0, col := 0, phase := false,
                          capState := .rowCapture })
        else s) ∧
    exec .tWaitFrameHigh s =
      .next (if s.level .fsync = true
        then { s with i := 0, gate := .arm, capState := .seqCapture, stream := [] } else s)

/-- `D_DISCARD_LEAD` on a delivered sample (R143). The fields `sample` and `stream` are the model's
bookkeeping of log entry 18. -/
def Obligations.DiscardLeadResult : Prop :=
  ∀ s : State, s.gate = .read → exec .dDiscardLead s =
    .next (if s.dCnt + 1 = s.par.dstnLeadDiscard
      then { s with gate := .arm, sample := s.busByte, stream := s.stream ++ [s.busByte],
                    dCnt := s.dCnt + 1, y := 0, col := 0, phase := false,
                    capState := .rowCapture }
      else { s with gate := .arm, sample := s.busByte, stream := s.stream ++ [s.busByte],
                    dCnt := s.dCnt + 1 })

/-- `D_ROW_CAPTURE_S0` on a delivered sample (R144). The fields `sample` and `stream` are the model's
bookkeeping of log entry 18. -/
def Obligations.RowCaptureFirstSampleResult : Prop :=
  ∀ s : State, s.gate = .read → exec .dRowCaptureS0 s =
    .next { s with gate := .arm, sample := s.busByte, stream := s.stream ++ [s.busByte],
                   s0 := s.busByte, phase := true }

/-- `D_ROW_CAPTURE_S1` on a delivered sample (R145, R146, R147): the two stored bytes, every other
byte of every memory, the position, and everything else. The fields `sample` and `stream` are the
model's bookkeeping of log entry 18. -/
def Obligations.RowCaptureSecondSampleResult : Prop :=
  ∀ (s : State) (b : Byte) (top bottom : Nat), s.gate = .read → s.col < 80 → b = s.busByte →
    top = (s.y + 1) % 200 * 80 + s.col → bottom = ((s.y + 1) % 200 + 200) * 80 + s.col →
    ∃ t, exec .dRowCaptureS1 s = .next t ∧
      t.rawByte top = (b &&& 0xF0#8) ||| ((s.s0 &&& 0xF0#8) >>> 4) ∧
      t.rawByte bottom = ((b &&& 0x0F#8) <<< 4) ||| (s.s0 &&& 0x0F#8) ∧
      (∀ a, a ≠ top → a ≠ bottom → t.rawByte a = s.rawByte a) ∧
      (∀ k a, t.slotByte k a = s.slotByte k a) ∧
      t = { s with
              gate := .arm, sample := b, stream := s.stream ++ [b], s1 := b, phase := false
              rawFrame := t.rawFrame
              col := if s.col < 79 then s.col + 1 else 0
              y := if s.col < 79 then s.y else if s.y < 199 then s.y + 1 else s.y
              capState := if s.col < 79 then s.capState else if s.y < 199 then s.capState
                else .done }

/-- The format F-PAIR as a row stores what the two samples of a byte column store (R93, R94, R145);
that the row does so is the model's choice of log entry 12. -/
def Obligations.PairFormatResult : Prop :=
  ∀ (s : State) (x0 x1 : Byte) (top bottom : Nat), s.col < 80 →
    top = (s.y + 1) % 200 * 80 + s.col → bottom = ((s.y + 1) % 200 + 200) * 80 + s.col →
    ∃ t, exec (.fPair x0 x1) s = .next t ∧
      t.rawByte top = (x1 &&& 0xF0#8) ||| ((x0 &&& 0xF0#8) >>> 4) ∧
      t.rawByte bottom = ((x1 &&& 0x0F#8) <<< 4) ||| (x0 &&& 0x0F#8) ∧
      (∀ a, a ≠ top → a ≠ bottom → t.rawByte a = s.rawByte a) ∧
      (∀ k a, t.slotByte k a = s.slotByte k a) ∧
      t = { s with
              s0 := x0, s1 := x1, phase := false
              rawFrame := t.rawFrame
              col := if s.col < 79 then s.col + 1 else 0
              y := if s.col < 79 then s.y else if s.y < 199 then s.y + 1 else s.y
              capState := if s.col < 79 then s.capState else if s.y < 199 then s.capState
                else .done }

/-- The reconstruction formulas (R146), pixel by pixel what they give (R94), and that the map from a
pair of samples to a pair of bytes is a bijection. -/
def Obligations.PairReconstructionIsABijection : Prop :=
  (∀ x0 x1 : Byte, topByte x0 x1 = (x1 &&& 0xF0#8) ||| ((x0 &&& 0xF0#8) >>> 4) ∧
    bottomByte x0 x1 = ((x1 &&& 0x0F#8) <<< 4) ||| (x0 &&& 0x0F#8)) ∧
  (∀ (x0 x1 : Byte) (j : Nat), j < 8 →
    (topByte x0 x1).getLsbD (7 - j) =
      (if j < 4 then x1.getLsbD (7 - j) else x0.getLsbD (11 - j)) ∧
    (bottomByte x0 x1).getLsbD (7 - j) =
      (if j < 4 then x1.getLsbD (3 - j) else x0.getLsbD (7 - j))) ∧
  Function.Bijective fun x : Byte × Byte => (topByte x.1 x.2, bottomByte x.1 x.2)

/-- Over one pass the row placement is a permutation of `0..199` (R150). -/
def Obligations.RowPlacementIsAPermutation : Prop :=
  Set.BijOn dstRow (Set.Iio 200) (Set.Iio 200)

/-- `T_SEQ_CAPTURE` on a delivered sample (R162): the stored byte, every other byte of every memory,
the index, and everything else. The fields `sample` and `stream` are the model's bookkeeping of log
entry 18. -/
def Obligations.SeqCaptureResult : Prop :=
  ∀ (s : State) (b : Byte), s.gate = .read → s.i < 32000 → b = s.busByte →
    ∃ t, exec .tSeqCapture s = .next t ∧
      t.rawByte s.i = b ∧
      (∀ a, a ≠ s.i → t.rawByte a = s.rawByte a) ∧
      (∀ k a, t.slotByte k a = s.slotByte k a) ∧
      t = { s with
              gate := .arm, sample := b, stream := s.stream ++ [b]
              rawFrame := t.rawFrame
              i := if s.i < 31999 then s.i + 1 else s.i
              capState := if s.i < 31999 then s.capState else .done }

/-- The format F-TFT as a row stores one sample unchanged, line D0 the leftmost of its eight pixels
(R97, R62); that the row stores it is the model's choice of log entry 12. -/
def Obligations.TftFormatResult : Prop :=
  ∀ (s : State) (b : Byte), s.i < 32000 →
    ∃ t, exec (.fTft b) s = .next t ∧
      t.rawByte s.i = b ∧
      (∀ j < 8, t.rawPixel (8 * (s.i % 80) + j) (s.i / 80) = b.getLsbD (7 - j)) ∧
      (∀ a, a ≠ s.i → t.rawByte a = s.rawByte a) ∧
      (∀ k a, t.slotByte k a = s.slotByte k a) ∧
      t = { s with
              rawFrame := t.rawFrame
              i := if s.i < 31999 then s.i + 1 else s.i
              capState := if s.i < 31999 then s.capState else .done }

/-- `D_DONE` and `T_DONE` (R148, R163). -/
def Obligations.DoneGoesToTheAssembler : Prop :=
  ∀ s : State, exec .dDone s = .next { s with capState := .asmSelect } ∧
    exec .tDone s = .next { s with capState := .asmSelect }

/-! ## FrameAssembler -/

/-- `ASM_SELECT` (R171). -/
def Obligations.AsmSelectResult : Prop :=
  ∀ s : State, exec .asmSelect s =
    .next { s with stg := 1 - s.displayPointer, zo := 0, capState := .asmZero }

/-- `ASM_ZERO` (R172): the zeroed byte, every other byte of every memory, and everything else. -/
def Obligations.AsmZeroResult : Prop :=
  ∀ s : State, s.zo < 96000 →
    ∃ t, exec .asmZero s = .next t ∧
      t.slotByte s.stg s.zo = 0x00#8 ∧
      (∀ k a, (k ≠ s.stg ∨ a ≠ s.zo) → t.slotByte k a = s.slotByte k a) ∧
      (∀ a, t.rawByte a = s.rawByte a) ∧
      t = { s with
              slot0 := t.slot0, slot1 := t.slot1
              zo := if s.zo < 95999 then s.zo + 1 else s.zo
              o := if s.zo < 95999 then s.o else 0
              p := if s.zo < 95999 then s.p else 0
              capState := if s.zo < 95999 then s.capState else .asmCopy }

/-- `ASM_COPY` (R173): the copied byte, every other byte of every memory, and everything else. -/
def Obligations.AsmCopyResult : Prop :=
  ∀ (s : State) (dst : Nat), s.o < 32000 → s.p < 3 → dst = s.p * 32000 + s.o →
    ∃ t, exec .asmCopy s = .next t ∧
      t.slotByte s.stg dst = s.rawByte s.o ∧
      (∀ k a, (k ≠ s.stg ∨ a ≠ dst) → t.slotByte k a = s.slotByte k a) ∧
      (∀ a, t.rawByte a = s.rawByte a) ∧
      t = { s with
              slot0 := t.slot0, slot1 := t.slot1
              p := if s.p < 2 then s.p + 1 else 0
              o := if s.p < 2 then s.o else if s.o < 31999 then s.o + 1 else s.o
              capState := if s.p < 2 then s.capState else if s.o < 31999 then s.capState
                else .asmPublish }

/-- `ASM_PUBLISH` (R174); and no other move of an agent changes `DisplayPointer`. -/
def Obligations.AsmPublishResult : Prop :=
  (∀ s : State, exec .asmPublish s =
    .next { s with displayPointer := s.stg, trace := s.trace ++ [.pub s.stg],
                   capState := .waitFrameHigh }) ∧
  ∀ (s t : State) (m : Move), m ≠ .reset → runMove m s = .next t →
    t.displayPointer = s.displayPointer ∨ (m = .cap ∧ s.capState = .asmPublish)

/-! ## OutputFeeder -/

/-- `F_ACQUIRE` (R188): the two ways on; and blocked on an empty queue, where R188 and R212 say that
the step is not enabled and the move that changes nothing is the model's choice of log entry 13. -/
def Obligations.AcquireResult : Prop :=
  ∀ s : State, (s.freeQ = [] → exec .fAcquire s = .next s) ∧
    (∀ h rest, s.freeQ = h :: rest → exec .fAcquire s =
      .next (if s.par.ptrSnapshot = .perRow ∨ s.fy = 0
        then { s with freeQ := rest, fblk := some h, trace := s.trace ++ [.acq h],
                      feedState := .readPtr }
        else { s with freeQ := rest, fblk := some h, trace := s.trace ++ [.acq h],
                      fch := 0, fb := 0, feedState := .readEncode }))

/-- `F_READPTR` (R189). -/
def Obligations.ReadPointerResult : Prop :=
  ∀ s : State, exec .fReadPtr s =
    .next { s with fptr := s.displayPointer, fch := 0, fb := 0, feedState := .readEncode }

/-- `F_READ_ENCODE` (R190): the byte read into the slice, and with the last byte of a slice the
`encode_row` event and the ghost payload. -/
def Obligations.ReadEncodeResult : Prop :=
  ∀ s : State, s.fch < 3 → s.fy < 400 → s.fb < 80 →
    (s.fb < 79 → ∃ t, exec .fReadEncode s = .next t ∧
      t = { s with fslice := t.fslice, fb := s.fb + 1 } ∧
      ∀ (c b : Nat) (_ : c < 3) (_ : b < 80), t.fslice[c][b] =
        if c = s.fch ∧ b = s.fb then s.slotByte s.fptr (s.fch * 32000 + s.fy * 80 + s.fb)
        else s.fslice[c][b]) ∧
    (∀ h, s.fb = 79 → s.fblk = some h → ∃ t, exec .fReadEncode s = .next t ∧
      t = { s with
              fslice := t.fslice, payload := t.payload, fb := 0
              trace := s.trace ++ [.enc h s.fch (t.sliceOf s.fch)]
              fch := if s.fch < 2 then s.fch + 1 else s.fch
              feedState := if s.fch < 2 then s.feedState else .submit } ∧
      (∀ (c b : Nat) (_ : c < 3) (_ : b < 80), t.fslice[c][b] =
        if c = s.fch ∧ b = s.fb then s.slotByte s.fptr (s.fch * 32000 + s.fy * 80 + s.fb)
        else s.fslice[c][b]) ∧
      t.payloadOf h s.fch = t.sliceOf s.fch ∧
      ∀ g c, c < 3 → (g ≠ h ∨ c ≠ s.fch) → t.payloadOf g c = s.payloadOf g c)

/-- `F_SUBMIT` (R191): the push; and blocked on a full queue, where R191 and R212 say that the step is
not enabled and the move that changes nothing is the model's choice of log entry 13. -/
def Obligations.SubmitResult : Prop :=
  ∀ (s : State) (h : Nat), s.fblk = some h →
    (s.par.validCap ≤ s.validQ.length → exec .fSubmit s = .next s) ∧
    (s.validQ.length < s.par.validCap → exec .fSubmit s =
      .next { s with validQ := s.validQ ++ [h], fblk := none, trace := s.trace ++ [.sub h],
                     feedState := .advance })

/-- `F_ADVANCE` (R192). -/
def Obligations.AdvanceResult : Prop :=
  ∀ s : State, exec .fAdvance s =
    .next { s with fy := if s.fy < 399 then s.fy + 1 else 0, feedState := .acquire }

/-! ## Display Sink -/

/-- `SINK_TAKE_VALID` (R226): the oldest valid handle joins the held ones. On an empty queue R226's
guard makes the step not enabled, and the move that changes nothing is the model's choice of log
entry 13. -/
def Obligations.SinkTakeResult : Prop :=
  ∀ s : State, (s.validQ = [] → exec .sinkTakeValid s = .next s) ∧
    (∀ h rest, s.validQ = h :: rest → ∃ t, exec .sinkTakeValid s = .next t ∧
      t = { s with validQ := rest, sinkHeld := t.sinkHeld } ∧
      ∀ x, x ∈ t.sinkHeld ↔ x = h ∨ x ∈ s.sinkHeld)

/-- `SINK_RELEASE_FREE` (R227): a held handle goes to the tail of `free_q` when it has room. The held
handles are a set, so each is listed once. For a handle that is not held, or with `free_q` full, R227's
choice and guard make the step not enabled, and the move that changes nothing is the model's choice of
log entry 13. -/
def Obligations.SinkReleaseResult : Prop :=
  ∀ (s : State) (h : Nat),
    (h ∉ s.sinkHeld ∨ s.par.freeCap ≤ s.freeQ.length →
      exec (.sinkReleaseFree h) s = .next s) ∧
    (h ∈ s.sinkHeld → s.freeQ.length < s.par.freeCap → s.sinkHeld.Nodup →
      ∃ t, exec (.sinkReleaseFree h) s = .next t ∧
        t = { s with freeQ := s.freeQ ++ [h], sinkHeld := t.sinkHeld } ∧
        ∀ x, x ∈ t.sinkHeld ↔ x ≠ h ∧ x ∈ s.sinkHeld)

/-! ## Waiting and ownership -/

/-- The closed list of stuck conditions (R214): in a good state a move of CAP, or of FEED, changes
nothing exactly when that agent is in one of them. That a blocked queue step of FEED is a move that
changes nothing, where R212 says that it is not enabled, is the model's choice of log entry 13. -/
def Obligations.OnlyStuckAgentsMakeNoProgress : Prop :=
  ∀ s : State, s.Inv →
    (runMove .cap s = .next s ↔ s.capStuck ≠ none) ∧
    (runMove .feed s = .next s ↔ s.feedStuck ≠ none)

/-- Each stuck condition is the state and the level or queue R214 names. -/
def Obligations.StuckConditionsAreAsListed : Prop :=
  ∀ s : State,
    (s.capStuck = some .hangFsyncHigh ↔
      s.capState = .waitFrameHigh ∧ s.level .fsync = false) ∧
    (s.capStuck = some .hangFsyncLow ↔
      s.capState = .waitFrameLow ∧ s.level .fsync = true) ∧
    (s.capStuck = some .hangPclkArm ↔
      (s.capState = .discardLead ∨ s.capState = .rowCapture ∨ s.capState = .seqCapture) ∧
      s.gate = .arm ∧ s.level .pclk = s.par.pclkSampleLevel) ∧
    (s.capStuck = some .hangPclkFire ↔
      (s.capState = .discardLead ∨ s.capState = .rowCapture ∨ s.capState = .seqCapture) ∧
      s.gate = .fire ∧ s.level .pclk ≠ s.par.pclkSampleLevel) ∧
    (s.feedStuck = some .blockFreeEmpty ↔ s.feedState = .acquire ∧ s.freeQ = []) ∧
    (s.feedStuck = some .blockValidFull ↔
      s.feedState = .submit ∧ s.par.validCap ≤ s.validQ.length)

/-- The state is partitioned by writer (R20): what a move of each agent may change. -/
def Obligations.EachAgentWritesItsOwnState : Prop :=
  ∀ s t : State,
    (runMove .cap s = .next t →
      t = { t with
              pins := s.pins, feedState := s.feedState, fy := s.fy, fptr := s.fptr
              fch := s.fch, fb := s.fb, fblk := s.fblk, fslice := s.fslice
              freeQ := s.freeQ, validQ := s.validQ, payload := s.payload
              sinkHeld := s.sinkHeld, par := s.par, script := s.script, tick := s.tick
              epoch := s.epoch }) ∧
    (runMove .feed s = .next t →
      t = { s with
              feedState := t.feedState, fy := t.fy, fptr := t.fptr
              fch := t.fch, fb := t.fb, fblk := t.fblk, fslice := t.fslice
              freeQ := t.freeQ, validQ := t.validQ, payload := t.payload
              trace := t.trace }) ∧
    (∀ m, m = .sinkTake ∨ (∃ h, m = .sinkRelease h) → runMove m s = .next t →
      t = { s with freeQ := t.freeQ, validQ := t.validQ, sinkHeld := t.sinkHeld })

/-- CAP never writes the published slot (R176, R178, R220), and only `ASM_PUBLISH` moves the
pointer, to the slot that was staging. -/
def Obligations.PublishedSlotIsNotWritten : Prop :=
  ∀ s t : State, s.Inv → runMove .cap s = .next t →
    (∀ a, t.slotByte s.displayPointer a = s.slotByte s.displayPointer a) ∧
    t.displayPointer =
      (if s.capState = .asmPublish then 1 - s.displayPointer else s.displayPointer)

/-- With `VALID_CAP >= N_BLOCKS` the guard of `F_SUBMIT` never fails (R191), and the capacity guard
of `SINK_RELEASE_FREE` never does (R227). -/
def Obligations.CapacityGuardsNeverFail : Prop :=
  ∀ s : State, s.Inv →
    (s.par.nBlocks ≤ s.par.validCap → s.feedState = .submit → s.feedStuck = none) ∧
    (s.sinkHeld ≠ [] → s.releaseGuard = true)

/-- Backpressure with one block (R195): once the block is submitted FEED is stuck until the SINK has
taken it and then released it. In the submitted state every move but the take and RESET, and after the
take every move but the release of the block and RESET, leaves FEED stuck and the block where it is. -/
def Obligations.OneBlockBackpressure : Prop :=
  ∀ s : State, s.Inv → s.par.nBlocks = 1 → s.feedState = .acquire → s.validQ = [0] →
    s.feedStuck = some .blockFreeEmpty ∧
    (∀ m v, m ≠ .sinkTake → m ≠ .reset → runMove m s = .next v →
      v.feedStuck = some .blockFreeEmpty ∧ v.feedState = .acquire ∧ v.validQ = [0]) ∧
    ∃ t, runMove .sinkTake s = .next t ∧
      t.feedStuck = some .blockFreeEmpty ∧ t.validQ = [] ∧ t.sinkHeld = [0] ∧
      (∀ m v, m ≠ .sinkRelease 0 → m ≠ .reset → runMove m t = .next v →
        v.feedStuck = some .blockFreeEmpty ∧ v.feedState = .acquire ∧ v.validQ = [] ∧
        v.sinkHeld = [0]) ∧
      ∃ u, runMove (.sinkRelease 0) t = .next u ∧ u.feedStuck = none ∧ u.freeQ = [0]

/-! ## Invariants that every step keeps -/

/-- The structural invariant: ranges, canonical memories, configuration, ownership of handles, the
staging slot never the published one. -/
def Obligations.StepKeepsTheInvariant : Prop :=
  ∀ s t : State, s.Inv → step s = .next t → t.Inv

/-- In a good state the machine never faults and never refuses: no access leaves its space (R68), no
reserved or impossible state is met (R106), and the block ends no run (R15, R210). That a blocked move
answers the same state is the model's choice of log entry 13. -/
def Obligations.GoodStatesAlwaysStep : Prop :=
  ∀ s : State, s.Inv → ∃ t, step s = .next t

/-- RawFrame is, at every point of a pass and of the assembly after it, the function of the sample
stream that R149 and R164 give. -/
def Obligations.StepKeepsTheCaptureData : Prop :=
  ∀ s t : State, s.Inv → s.CaptureData → step s = .next t → t.CaptureData

/-- The staging slot is zeroed, whole, then filled with three copies of RawFrame, the bytes not yet
copied still 0, before the publish (R172, R173, R175). -/
def Obligations.StepKeepsTheAssemblyData : Prop :=
  ∀ s t : State, s.Inv → s.AssemblyData → step s = .next t → t.AssemblyData

/-- Once something has been published, the three planes of the published slot are equal (R175). -/
def Obligations.StepKeepsThePlanesEqual : Prop :=
  ∀ s t : State, s.Inv → s.AssemblyData → s.PlanesEqual → step s = .next t → t.PlanesEqual

/-- What a publish shows (R175, R272): every plane of the newly published slot is the frame that
R149 or R164 gives of the sample stream of the pass. -/
def Obligations.PublishShowsTheFrameOfTheStream : Prop :=
  ∀ s t : State, s.Inv → s.CaptureData → s.AssemblyData → s.capState = .asmPublish →
    runMove .cap s = .next t →
    ∀ p < 3, ∀ off < 32000, t.slotByte t.displayPointer (p * 32000 + off) =
      frameByte s.mode s.par.dstnLeadDiscard s.stream off

/-- Under premise T1 the bytes FEED has collected for a row are those of the row in the slot it read
the pointer of (R189, R190, R265). T1 is asked only where the next move is CAP's, as R265 speaks of
CAP's own steps. -/
def Obligations.StepKeepsTheSliceDataUnderT1 : Prop :=
  ∀ s t : State, s.Inv → (s.upNext = .move .cap → s.T1) → s.SliceData → step s = .next t →
    t.SliceData

/-- What the block shows to the outside is a sequence of rows of five events each, the last one
possibly unfinished (R193). -/
def Obligations.StepKeepsTheTraceShape : Prop :=
  ∀ s t : State, s.Inv → s.TraceShape → step s = .next t → t.TraceShape

/-- The row counter counts the submitted rows modulo 400, and every submit follows its acquire
(R192, R194). -/
def Obligations.StepKeepsTheRowCount : Prop :=
  ∀ s t : State, s.Inv → s.RowCount → step s = .next t → t.RowCount

/-- `DisplayPointer` after the `n`-th publish since reset is `n mod 2` (R174, R246). -/
def Obligations.StepKeepsThePointerParity : Prop :=
  ∀ s t : State, s.Inv → s.PointerParity → step s = .next t → t.PointerParity

/-! ## Whole operations -/

/-- One `publish_from` (R170, R175, R271): 192002 moves of CAP from `ASM_SELECT` publish the slot
that was staging, its three planes pixel for pixel the RawFrame. -/
def Obligations.PublishFromReplicatesTheFrame : Prop :=
  ∀ s : State, s.capState = .asmSelect →
    ∃ t, runMoves (List.replicate 192002 .cap) s = .next t ∧
      t.capState = .waitFrameHigh ∧ t.displayPointer = 1 - s.displayPointer ∧
      t.trace = s.trace ++ [.pub (1 - s.displayPointer)] ∧
      (∀ p < 3, ∀ off < 32000, t.slotByte t.displayPointer (p * 32000 + off) = s.rawByte off) ∧
      (∀ p < 3, ∀ x < 640, ∀ r < 400, t.slotPixel t.displayPointer p x r = s.rawPixel x r) ∧
      (∀ a, t.slotByte s.displayPointer a = s.slotByte s.displayPointer a) ∧
      (∀ a, t.rawByte a = s.rawByte a)

/-- One output row with `PER_ROW` (R193, R271): 244 moves of FEED, five events, the slices those of
the row in the slot the pointer named. -/
def Obligations.OneRowOfTheFeeder : Prop :=
  ∀ (s : State) (h : Nat) (rest : List Nat), s.feedState = .acquire → s.freeQ = h :: rest →
    s.par.ptrSnapshot = .perRow → s.validQ.length < s.par.validCap → s.fy < 400 →
    ∃ (t : State) (x0 x1 x2 : Slice), runMoves (List.replicate 244 .feed) s = .next t ∧
      t.trace = s.trace ++ [.acq h, .enc h 0 x0, .enc h 1 x1, .enc h 2 x2, .sub h] ∧
      (∀ (b : Nat) (_ : b < 80),
        x0[b] = s.slotByte s.displayPointer (s.fy * 80 + b) ∧
        x1[b] = s.slotByte s.displayPointer (32000 + s.fy * 80 + b) ∧
        x2[b] = s.slotByte s.displayPointer (64000 + s.fy * 80 + b)) ∧
      t.payloadOf h 0 = x0 ∧ t.payloadOf h 1 = x1 ∧ t.payloadOf h 2 = x2 ∧
      t.feedState = .acquire ∧ t.fy = (s.fy + 1) % 400 ∧ t.freeQ = rest ∧
      t.validQ = s.validQ ++ [h] ∧ t.fblk = none
end

