-- ==== Sys2Proof/Laws/Memory.lean ====
section
/-!
SUPPORT. Laws of the sparse map and of the set of handles: a read after a write, and that every
operation keeps the canonical form.
-/

namespace Sys2Proof.Machine

variable {α : Type}

theorem Sparse.find_insert_self (a : Nat) (v : α) (m : List (Nat × α)) :
    Sparse.find (Sparse.insert a v m) a = some v := by
  induction m with
  | nil => simp [Sparse.insert, Sparse.find]
  | cons e rest ih =>
    obtain ⟨k, w⟩ := e
    simp only [Sparse.insert]
    split
    · simp [Sparse.find]
    · split
      · simp [Sparse.find]
      · rename_i h
        simp [Sparse.find, Ne.symm h, ih]

theorem Sparse.find_insert_ne {a b : Nat} (h : b ≠ a) (v : α) (m : List (Nat × α)) :
    Sparse.find (Sparse.insert a v m) b = Sparse.find m b := by
  induction m with
  | nil => simp [Sparse.insert, Sparse.find, Ne.symm h]
  | cons e rest ih =>
    obtain ⟨k, w⟩ := e
    simp only [Sparse.insert]
    split
    · simp [Sparse.find, Ne.symm h]
    · split
      · rename_i hak
        subst hak
        simp [Sparse.find, Ne.symm h]
      · simp [Sparse.find, ih]

/-- A read after a write: the written key holds the value, every other key what it held. -/
theorem Sparse.find_insert (a b : Nat) (v : α) (m : List (Nat × α)) :
    Sparse.find (Sparse.insert a v m) b = if b = a then some v else Sparse.find m b := by
  split
  · rename_i h
    rw [h, Sparse.find_insert_self]
  · rename_i h
    exact Sparse.find_insert_ne h v m

theorem Sparse.mem_insert {a : Nat} {v : α} {m : List (Nat × α)} {e : Nat × α}
    (h : e ∈ Sparse.insert a v m) : e = (a, v) ∨ e ∈ m := by
  induction m with
  | nil => simpa [Sparse.insert] using h
  | cons x rest ih =>
    obtain ⟨k, w⟩ := x
    simp only [Sparse.insert] at h
    split at h
    · simpa using h
    · split at h
      · rcases List.mem_cons.1 h with h | h
        · exact .inl h
        · exact .inr (List.mem_cons_of_mem _ h)
      · rcases List.mem_cons.1 h with h | h
        · exact .inr (h ▸ List.mem_cons_self)
        · rcases ih h with h | h
          · exact .inl h
          · exact .inr (List.mem_cons_of_mem _ h)

/-- A write keeps the canonical form. -/
theorem Sparse.insert_canonical (a : Nat) (v : α) {m : List (Nat × α)} (h : Sparse.Canonical m) :
    Sparse.Canonical (Sparse.insert a v m) := by
  induction m with
  | nil => simp [Sparse.insert, Sparse.Canonical]
  | cons x rest ih =>
    obtain ⟨k, w⟩ := x
    obtain ⟨hx, hr⟩ := List.pairwise_cons.1 h
    simp only [Sparse.insert]
    split
    · rename_i hlt
      refine List.pairwise_cons.2 ⟨fun e he => ?_, h⟩
      rcases List.mem_cons.1 he with he | he
      · simpa [he] using hlt
      · exact lt_trans hlt (hx e he)
    · split
      · rename_i heq
        subst heq
        exact List.pairwise_cons.2 ⟨hx, hr⟩
      · refine List.pairwise_cons.2 ⟨fun e he => ?_, ih hr⟩
        rcases Sparse.mem_insert he with he | he
        · subst he
          show k < a
          omega
        · exact hx e he

/-- Two canonical maps with the same contents are the same list. -/
theorem Sparse.canonical_ext {m n : List (Nat × α)} (hm : Sparse.Canonical m)
    (hn : Sparse.Canonical n) (h : ∀ a, Sparse.find m a = Sparse.find n a) : m = n := by
  induction m generalizing n with
  | nil =>
    cases n with
    | nil => rfl
    | cons e rest =>
      have := h e.1
      simp [Sparse.find] at this
  | cons x xs ih =>
    obtain ⟨k, v⟩ := x
    obtain ⟨hx, hxs⟩ := List.pairwise_cons.1 hm
    have absent : ∀ (l : List (Nat × α)) (a : Nat), (∀ e ∈ l, a < e.1) → Sparse.find l a = none := by
      intro l a hl
      induction l with
      | nil => rfl
      | cons e r ihl =>
        have he := hl e List.mem_cons_self
        simp only [Sparse.find]
        rw [if_neg (by omega)]
        exact ihl fun e' he' => hl e' (List.mem_cons_of_mem _ he')
    cases n with
    | nil =>
      have := h k
      simp [Sparse.find] at this
    | cons z zs =>
      obtain ⟨j, w⟩ := z
      obtain ⟨hz, hzs⟩ := List.pairwise_cons.1 hn
      have hkj : k = j := by
        rcases Nat.lt_trichotomy k j with hlt | heq | hgt
        · have h1 := h k
          rw [absent ((j, w) :: zs) k (fun e he => by
            rcases List.mem_cons.1 he with he | he
            · simpa [he] using hlt
            · exact lt_trans hlt (hz e he))] at h1
          simp [Sparse.find] at h1
        · exact heq
        · have h1 := h j
          rw [absent ((k, v) :: xs) j (fun e he => by
            rcases List.mem_cons.1 he with he | he
            · simpa [he] using hgt
            · exact lt_trans hgt (hx e he))] at h1
          simp [Sparse.find] at h1
      subst hkj
      have hvw : v = w := by
        have := h k
        simpa [Sparse.find] using this
      subst hvw
      congr 1
      refine ih hxs hzs fun a => ?_
      by_cases hak : k = a
      · subst hak
        rw [absent xs k hx, absent zs k hz]
      · have := h a
        simpa [Sparse.find, hak] using this

/-- The canonical form of the empty memory. -/
theorem Memory.wf_nil : Memory.wf [] := List.Pairwise.nil

/-- A byte write keeps the canonical form of a memory. -/
theorem Memory.wf_insert (a : Nat) (v : Byte) {m : Memory} (h : Memory.wf m) :
    Memory.wf (Sparse.insert a v m) := Sparse.insert_canonical a v h

/-- A byte write inside a space keeps a memory inside it. -/
theorem Memory.within_insert {size a : Nat} (ha : a < size) (v : Byte) {m : Memory}
    (h : Memory.Within size m) : Memory.Within size (Sparse.insert a v m) := by
  intro e he
  rcases Sparse.mem_insert he with he | he
  · simpa [he] using ha
  · exact h e he

/-! ## The set of held handles -/

theorem HandleSet.mem_insert {h x : Nat} {l : List Nat} :
    x ∈ HandleSet.insert h l ↔ x = h ∨ x ∈ l := by
  induction l with
  | nil => simp [HandleSet.insert]
  | cons y r ih =>
    simp only [HandleSet.insert]
    split
    · simp
    · split
      · rename_i heq
        subst heq
        simp
      · simp only [List.mem_cons, ih]
        tauto

/-- Adding a handle keeps the set strictly rising. -/
theorem HandleSet.insert_rising (h : Nat) {l : List Nat} (hl : l.Pairwise (· < ·)) :
    (HandleSet.insert h l).Pairwise (· < ·) := by
  induction l with
  | nil => simp [HandleSet.insert]
  | cons y r ih =>
    obtain ⟨hy, hr⟩ := List.pairwise_cons.1 hl
    simp only [HandleSet.insert]
    split
    · rename_i hlt
      refine List.pairwise_cons.2 ⟨fun x hx => ?_, hl⟩
      rcases List.mem_cons.1 hx with hx | hx
      · exact hx ▸ hlt
      · exact lt_trans hlt (hy x hx)
    · split
      · exact hl
      · refine List.pairwise_cons.2 ⟨fun x hx => ?_, ih hr⟩
        rcases HandleSet.mem_insert.1 hx with hx | hx
        · subst hx
          show y < x
          omega
        · exact hy x hx

/-- A handle not yet in the set is added once. -/
theorem HandleSet.insert_perm {h : Nat} {l : List Nat} (hn : h ∉ l) :
    (HandleSet.insert h l).Perm (h :: l) := by
  induction l with
  | nil => simp [HandleSet.insert]
  | cons y r ih =>
    have hy : h ≠ y := fun e => hn (e ▸ List.mem_cons_self)
    have hr : h ∉ r := fun e => hn (List.mem_cons_of_mem _ e)
    simp only [HandleSet.insert]
    split
    · exact List.Perm.refl _
    · exact ((ih hr).cons y).trans (List.Perm.swap _ _ _)

end Sys2Proof.Machine
end

