-- ==== Sys2Proof/Laws/State.lean ====
section
/-!
SUPPORT. One lemma per field per named update of the state, each true by rfl, so that no later proof
unfolds a record update.
-/

namespace Sys2Proof.Machine

variable (s : State)

/-! ## `State.setRaw` -/

@[simp] theorem State.setRaw_strapCode (off : Nat) (v : Byte) :
    (s.setRaw off v).strapCode = s.strapCode := rfl
@[simp] theorem State.setRaw_profileTag (off : Nat) (v : Byte) :
    (s.setRaw off v).profileTag = s.profileTag := rfl
@[simp] theorem State.setRaw_pin (off : Nat) (v : Byte) : (s.setRaw off v).pin = s.pin := rfl
@[simp] theorem State.setRaw_mask (off : Nat) (v : Byte) : (s.setRaw off v).mask = s.mask := rfl
@[simp] theorem State.setRaw_mode (off : Nat) (v : Byte) : (s.setRaw off v).mode = s.mode := rfl
@[simp] theorem State.setRaw_cfgUnrecognised (off : Nat) (v : Byte) :
    (s.setRaw off v).cfgUnrecognised = s.cfgUnrecognised := rfl
@[simp] theorem State.setRaw_capState (off : Nat) (v : Byte) :
    (s.setRaw off v).capState = s.capState := rfl
@[simp] theorem State.setRaw_gate (off : Nat) (v : Byte) : (s.setRaw off v).gate = s.gate := rfl
@[simp] theorem State.setRaw_dCnt (off : Nat) (v : Byte) : (s.setRaw off v).dCnt = s.dCnt := rfl
@[simp] theorem State.setRaw_y (off : Nat) (v : Byte) : (s.setRaw off v).y = s.y := rfl
@[simp] theorem State.setRaw_col (off : Nat) (v : Byte) : (s.setRaw off v).col = s.col := rfl
@[simp] theorem State.setRaw_phase (off : Nat) (v : Byte) : (s.setRaw off v).phase = s.phase := rfl
@[simp] theorem State.setRaw_s0 (off : Nat) (v : Byte) : (s.setRaw off v).s0 = s.s0 := rfl
@[simp] theorem State.setRaw_s1 (off : Nat) (v : Byte) : (s.setRaw off v).s1 = s.s1 := rfl
@[simp] theorem State.setRaw_i (off : Nat) (v : Byte) : (s.setRaw off v).i = s.i := rfl
@[simp] theorem State.setRaw_rawFrame (off : Nat) (v : Byte) :
    (s.setRaw off v).rawFrame = Sparse.insert off v s.rawFrame := rfl
@[simp] theorem State.setRaw_stg (off : Nat) (v : Byte) : (s.setRaw off v).stg = s.stg := rfl
@[simp] theorem State.setRaw_zo (off : Nat) (v : Byte) : (s.setRaw off v).zo = s.zo := rfl
@[simp] theorem State.setRaw_o (off : Nat) (v : Byte) : (s.setRaw off v).o = s.o := rfl
@[simp] theorem State.setRaw_p (off : Nat) (v : Byte) : (s.setRaw off v).p = s.p := rfl
@[simp] theorem State.setRaw_slot0 (off : Nat) (v : Byte) : (s.setRaw off v).slot0 = s.slot0 := rfl
@[simp] theorem State.setRaw_slot1 (off : Nat) (v : Byte) : (s.setRaw off v).slot1 = s.slot1 := rfl
@[simp] theorem State.setRaw_displayPointer (off : Nat) (v : Byte) :
    (s.setRaw off v).displayPointer = s.displayPointer := rfl
@[simp] theorem State.setRaw_pins (off : Nat) (v : Byte) : (s.setRaw off v).pins = s.pins := rfl
@[simp] theorem State.setRaw_feedState (off : Nat) (v : Byte) :
    (s.setRaw off v).feedState = s.feedState := rfl
@[simp] theorem State.setRaw_fy (off : Nat) (v : Byte) : (s.setRaw off v).fy = s.fy := rfl
@[simp] theorem State.setRaw_fptr (off : Nat) (v : Byte) : (s.setRaw off v).fptr = s.fptr := rfl
@[simp] theorem State.setRaw_fch (off : Nat) (v : Byte) : (s.setRaw off v).fch = s.fch := rfl
@[simp] theorem State.setRaw_fb (off : Nat) (v : Byte) : (s.setRaw off v).fb = s.fb := rfl
@[simp] theorem State.setRaw_fblk (off : Nat) (v : Byte) : (s.setRaw off v).fblk = s.fblk := rfl
@[simp] theorem State.setRaw_fslice (off : Nat) (v : Byte) :
    (s.setRaw off v).fslice = s.fslice := rfl
@[simp] theorem State.setRaw_freeQ (off : Nat) (v : Byte) : (s.setRaw off v).freeQ = s.freeQ := rfl
@[simp] theorem State.setRaw_validQ (off : Nat) (v : Byte) :
    (s.setRaw off v).validQ = s.validQ := rfl
@[simp] theorem State.setRaw_payload (off : Nat) (v : Byte) :
    (s.setRaw off v).payload = s.payload := rfl
@[simp] theorem State.setRaw_sinkHeld (off : Nat) (v : Byte) :
    (s.setRaw off v).sinkHeld = s.sinkHeld := rfl
@[simp] theorem State.setRaw_par (off : Nat) (v : Byte) : (s.setRaw off v).par = s.par := rfl
@[simp] theorem State.setRaw_script (off : Nat) (v : Byte) :
    (s.setRaw off v).script = s.script := rfl
@[simp] theorem State.setRaw_tick (off : Nat) (v : Byte) : (s.setRaw off v).tick = s.tick := rfl
@[simp] theorem State.setRaw_epoch (off : Nat) (v : Byte) : (s.setRaw off v).epoch = s.epoch := rfl
@[simp] theorem State.setRaw_sample (off : Nat) (v : Byte) :
    (s.setRaw off v).sample = s.sample := rfl
@[simp] theorem State.setRaw_stream (off : Nat) (v : Byte) :
    (s.setRaw off v).stream = s.stream := rfl
@[simp] theorem State.setRaw_trace (off : Nat) (v : Byte) : (s.setRaw off v).trace = s.trace := rfl

/-! ## `State.setSlot` -/

@[simp] theorem State.setSlot_strapCode (k : Fin 2) (off : Nat) (v : Byte) :
    (s.setSlot k off v).strapCode = s.strapCode := rfl
@[simp] theorem State.setSlot_profileTag (k : Fin 2) (off : Nat) (v : Byte) :
    (s.setSlot k off v).profileTag = s.profileTag := rfl
@[simp] theorem State.setSlot_pin (k : Fin 2) (off : Nat) (v : Byte) :
    (s.setSlot k off v).pin = s.pin := rfl
@[simp] theorem State.setSlot_mask (k : Fin 2) (off : Nat) (v : Byte) :
    (s.setSlot k off v).mask = s.mask := rfl
@[simp] theorem State.setSlot_mode (k : Fin 2) (off : Nat) (v : Byte) :
    (s.setSlot k off v).mode = s.mode := rfl
@[simp] theorem State.setSlot_cfgUnrecognised (k : Fin 2) (off : Nat) (v : Byte) :
    (s.setSlot k off v).cfgUnrecognised = s.cfgUnrecognised := rfl
@[simp] theorem State.setSlot_capState (k : Fin 2) (off : Nat) (v : Byte) :
    (s.setSlot k off v).capState = s.capState := rfl
@[simp] theorem State.setSlot_gate (k : Fin 2) (off : Nat) (v : Byte) :
    (s.setSlot k off v).gate = s.gate := rfl
@[simp] theorem State.setSlot_dCnt (k : Fin 2) (off : Nat) (v : Byte) :
    (s.setSlot k off v).dCnt = s.dCnt := rfl
@[simp] theorem State.setSlot_y (k : Fin 2) (off : Nat) (v : Byte) :
    (s.setSlot k off v).y = s.y := rfl
@[simp] theorem State.setSlot_col (k : Fin 2) (off : Nat) (v : Byte) :
    (s.setSlot k off v).col = s.col := rfl
@[simp] theorem State.setSlot_phase (k : Fin 2) (off : Nat) (v : Byte) :
    (s.setSlot k off v).phase = s.phase := rfl
@[simp] theorem State.setSlot_s0 (k : Fin 2) (off : Nat) (v : Byte) :
    (s.setSlot k off v).s0 = s.s0 := rfl
@[simp] theorem State.setSlot_s1 (k : Fin 2) (off : Nat) (v : Byte) :
    (s.setSlot k off v).s1 = s.s1 := rfl
@[simp] theorem State.setSlot_i (k : Fin 2) (off : Nat) (v : Byte) :
    (s.setSlot k off v).i = s.i := rfl
@[simp] theorem State.setSlot_rawFrame (k : Fin 2) (off : Nat) (v : Byte) :
    (s.setSlot k off v).rawFrame = s.rawFrame := rfl
@[simp] theorem State.setSlot_stg (k : Fin 2) (off : Nat) (v : Byte) :
    (s.setSlot k off v).stg = s.stg := rfl
@[simp] theorem State.setSlot_zo (k : Fin 2) (off : Nat) (v : Byte) :
    (s.setSlot k off v).zo = s.zo := rfl
@[simp] theorem State.setSlot_o (k : Fin 2) (off : Nat) (v : Byte) :
    (s.setSlot k off v).o = s.o := rfl
@[simp] theorem State.setSlot_p (k : Fin 2) (off : Nat) (v : Byte) :
    (s.setSlot k off v).p = s.p := rfl
@[simp] theorem State.setSlot_slot0 (k : Fin 2) (off : Nat) (v : Byte) :
    (s.setSlot k off v).slot0 = if k = 0 then Sparse.insert off v s.slot0 else s.slot0 := rfl
@[simp] theorem State.setSlot_slot1 (k : Fin 2) (off : Nat) (v : Byte) :
    (s.setSlot k off v).slot1 = if k = 0 then s.slot1 else Sparse.insert off v s.slot1 := rfl
@[simp] theorem State.setSlot_displayPointer (k : Fin 2) (off : Nat) (v : Byte) :
    (s.setSlot k off v).displayPointer = s.displayPointer := rfl
@[simp] theorem State.setSlot_pins (k : Fin 2) (off : Nat) (v : Byte) :
    (s.setSlot k off v).pins = s.pins := rfl
@[simp] theorem State.setSlot_feedState (k : Fin 2) (off : Nat) (v : Byte) :
    (s.setSlot k off v).feedState = s.feedState := rfl
@[simp] theorem State.setSlot_fy (k : Fin 2) (off : Nat) (v : Byte) :
    (s.setSlot k off v).fy = s.fy := rfl
@[simp] theorem State.setSlot_fptr (k : Fin 2) (off : Nat) (v : Byte) :
    (s.setSlot k off v).fptr = s.fptr := rfl
@[simp] theorem State.setSlot_fch (k : Fin 2) (off : Nat) (v : Byte) :
    (s.setSlot k off v).fch = s.fch := rfl
@[simp] theorem State.setSlot_fb (k : Fin 2) (off : Nat) (v : Byte) :
    (s.setSlot k off v).fb = s.fb := rfl
@[simp] theorem State.setSlot_fblk (k : Fin 2) (off : Nat) (v : Byte) :
    (s.setSlot k off v).fblk = s.fblk := rfl
@[simp] theorem State.setSlot_fslice (k : Fin 2) (off : Nat) (v : Byte) :
    (s.setSlot k off v).fslice = s.fslice := rfl
@[simp] theorem State.setSlot_freeQ (k : Fin 2) (off : Nat) (v : Byte) :
    (s.setSlot k off v).freeQ = s.freeQ := rfl
@[simp] theorem State.setSlot_validQ (k : Fin 2) (off : Nat) (v : Byte) :
    (s.setSlot k off v).validQ = s.validQ := rfl
@[simp] theorem State.setSlot_payload (k : Fin 2) (off : Nat) (v : Byte) :
    (s.setSlot k off v).payload = s.payload := rfl
@[simp] theorem State.setSlot_sinkHeld (k : Fin 2) (off : Nat) (v : Byte) :
    (s.setSlot k off v).sinkHeld = s.sinkHeld := rfl
@[simp] theorem State.setSlot_par (k : Fin 2) (off : Nat) (v : Byte) :
    (s.setSlot k off v).par = s.par := rfl
@[simp] theorem State.setSlot_script (k : Fin 2) (off : Nat) (v : Byte) :
    (s.setSlot k off v).script = s.script := rfl
@[simp] theorem State.setSlot_tick (k : Fin 2) (off : Nat) (v : Byte) :
    (s.setSlot k off v).tick = s.tick := rfl
@[simp] theorem State.setSlot_epoch (k : Fin 2) (off : Nat) (v : Byte) :
    (s.setSlot k off v).epoch = s.epoch := rfl
@[simp] theorem State.setSlot_sample (k : Fin 2) (off : Nat) (v : Byte) :
    (s.setSlot k off v).sample = s.sample := rfl
@[simp] theorem State.setSlot_stream (k : Fin 2) (off : Nat) (v : Byte) :
    (s.setSlot k off v).stream = s.stream := rfl
@[simp] theorem State.setSlot_trace (k : Fin 2) (off : Nat) (v : Byte) :
    (s.setSlot k off v).trace = s.trace := rfl

/-! ## `State.emit` -/

@[simp] theorem State.emit_strapCode (e : Event) : (s.emit e).strapCode = s.strapCode := rfl
@[simp] theorem State.emit_profileTag (e : Event) : (s.emit e).profileTag = s.profileTag := rfl
@[simp] theorem State.emit_pin (e : Event) : (s.emit e).pin = s.pin := rfl
@[simp] theorem State.emit_mask (e : Event) : (s.emit e).mask = s.mask := rfl
@[simp] theorem State.emit_mode (e : Event) : (s.emit e).mode = s.mode := rfl
@[simp] theorem State.emit_cfgUnrecognised (e : Event) :
    (s.emit e).cfgUnrecognised = s.cfgUnrecognised := rfl
@[simp] theorem State.emit_capState (e : Event) : (s.emit e).capState = s.capState := rfl
@[simp] theorem State.emit_gate (e : Event) : (s.emit e).gate = s.gate := rfl
@[simp] theorem State.emit_dCnt (e : Event) : (s.emit e).dCnt = s.dCnt := rfl
@[simp] theorem State.emit_y (e : Event) : (s.emit e).y = s.y := rfl
@[simp] theorem State.emit_col (e : Event) : (s.emit e).col = s.col := rfl
@[simp] theorem State.emit_phase (e : Event) : (s.emit e).phase = s.phase := rfl
@[simp] theorem State.emit_s0 (e : Event) : (s.emit e).s0 = s.s0 := rfl
@[simp] theorem State.emit_s1 (e : Event) : (s.emit e).s1 = s.s1 := rfl
@[simp] theorem State.emit_i (e : Event) : (s.emit e).i = s.i := rfl
@[simp] theorem State.emit_rawFrame (e : Event) : (s.emit e).rawFrame = s.rawFrame := rfl
@[simp] theorem State.emit_stg (e : Event) : (s.emit e).stg = s.stg := rfl
@[simp] theorem State.emit_zo (e : Event) : (s.emit e).zo = s.zo := rfl
@[simp] theorem State.emit_o (e : Event) : (s.emit e).o = s.o := rfl
@[simp] theorem State.emit_p (e : Event) : (s.emit e).p = s.p := rfl
@[simp] theorem State.emit_slot0 (e : Event) : (s.emit e).slot0 = s.slot0 := rfl
@[simp] theorem State.emit_slot1 (e : Event) : (s.emit e).slot1 = s.slot1 := rfl
@[simp] theorem State.emit_displayPointer (e : Event) :
    (s.emit e).displayPointer = s.displayPointer := rfl
@[simp] theorem State.emit_pins (e : Event) : (s.emit e).pins = s.pins := rfl
@[simp] theorem State.emit_feedState (e : Event) : (s.emit e).feedState = s.feedState := rfl
@[simp] theorem State.emit_fy (e : Event) : (s.emit e).fy = s.fy := rfl
@[simp] theorem State.emit_fptr (e : Event) : (s.emit e).fptr = s.fptr := rfl
@[simp] theorem State.emit_fch (e : Event) : (s.emit e).fch = s.fch := rfl
@[simp] theorem State.emit_fb (e : Event) : (s.emit e).fb = s.fb := rfl
@[simp] theorem State.emit_fblk (e : Event) : (s.emit e).fblk = s.fblk := rfl
@[simp] theorem State.emit_fslice (e : Event) : (s.emit e).fslice = s.fslice := rfl
@[simp] theorem State.emit_freeQ (e : Event) : (s.emit e).freeQ = s.freeQ := rfl
@[simp] theorem State.emit_validQ (e : Event) : (s.emit e).validQ = s.validQ := rfl
@[simp] theorem State.emit_payload (e : Event) : (s.emit e).payload = s.payload := rfl
@[simp] theorem State.emit_sinkHeld (e : Event) : (s.emit e).sinkHeld = s.sinkHeld := rfl
@[simp] theorem State.emit_par (e : Event) : (s.emit e).par = s.par := rfl
@[simp] theorem State.emit_script (e : Event) : (s.emit e).script = s.script := rfl
@[simp] theorem State.emit_tick (e : Event) : (s.emit e).tick = s.tick := rfl
@[simp] theorem State.emit_epoch (e : Event) : (s.emit e).epoch = s.epoch := rfl
@[simp] theorem State.emit_sample (e : Event) : (s.emit e).sample = s.sample := rfl
@[simp] theorem State.emit_stream (e : Event) : (s.emit e).stream = s.stream := rfl
@[simp] theorem State.emit_trace (e : Event) : (s.emit e).trace = s.trace ++ [e] := rfl

/-! ## `State.encodeRow` -/

@[simp] theorem State.encodeRow_strapCode (h c : Nat) :
    (s.encodeRow h c).strapCode = s.strapCode := rfl
@[simp] theorem State.encodeRow_profileTag (h c : Nat) :
    (s.encodeRow h c).profileTag = s.profileTag := rfl
@[simp] theorem State.encodeRow_pin (h c : Nat) : (s.encodeRow h c).pin = s.pin := rfl
@[simp] theorem State.encodeRow_mask (h c : Nat) : (s.encodeRow h c).mask = s.mask := rfl
@[simp] theorem State.encodeRow_mode (h c : Nat) : (s.encodeRow h c).mode = s.mode := rfl
@[simp] theorem State.encodeRow_cfgUnrecognised (h c : Nat) :
    (s.encodeRow h c).cfgUnrecognised = s.cfgUnrecognised := rfl
@[simp] theorem State.encodeRow_capState (h c : Nat) :
    (s.encodeRow h c).capState = s.capState := rfl
@[simp] theorem State.encodeRow_gate (h c : Nat) : (s.encodeRow h c).gate = s.gate := rfl
@[simp] theorem State.encodeRow_dCnt (h c : Nat) : (s.encodeRow h c).dCnt = s.dCnt := rfl
@[simp] theorem State.encodeRow_y (h c : Nat) : (s.encodeRow h c).y = s.y := rfl
@[simp] theorem State.encodeRow_col (h c : Nat) : (s.encodeRow h c).col = s.col := rfl
@[simp] theorem State.encodeRow_phase (h c : Nat) : (s.encodeRow h c).phase = s.phase := rfl
@[simp] theorem State.encodeRow_s0 (h c : Nat) : (s.encodeRow h c).s0 = s.s0 := rfl
@[simp] theorem State.encodeRow_s1 (h c : Nat) : (s.encodeRow h c).s1 = s.s1 := rfl
@[simp] theorem State.encodeRow_i (h c : Nat) : (s.encodeRow h c).i = s.i := rfl
@[simp] theorem State.encodeRow_rawFrame (h c : Nat) :
    (s.encodeRow h c).rawFrame = s.rawFrame := rfl
@[simp] theorem State.encodeRow_stg (h c : Nat) : (s.encodeRow h c).stg = s.stg := rfl
@[simp] theorem State.encodeRow_zo (h c : Nat) : (s.encodeRow h c).zo = s.zo := rfl
@[simp] theorem State.encodeRow_o (h c : Nat) : (s.encodeRow h c).o = s.o := rfl
@[simp] theorem State.encodeRow_p (h c : Nat) : (s.encodeRow h c).p = s.p := rfl
@[simp] theorem State.encodeRow_slot0 (h c : Nat) : (s.encodeRow h c).slot0 = s.slot0 := rfl
@[simp] theorem State.encodeRow_slot1 (h c : Nat) : (s.encodeRow h c).slot1 = s.slot1 := rfl
@[simp] theorem State.encodeRow_displayPointer (h c : Nat) :
    (s.encodeRow h c).displayPointer = s.displayPointer := rfl
@[simp] theorem State.encodeRow_pins (h c : Nat) : (s.encodeRow h c).pins = s.pins := rfl
@[simp] theorem State.encodeRow_feedState (h c : Nat) :
    (s.encodeRow h c).feedState = s.feedState := rfl
@[simp] theorem State.encodeRow_fy (h c : Nat) : (s.encodeRow h c).fy = s.fy := rfl
@[simp] theorem State.encodeRow_fptr (h c : Nat) : (s.encodeRow h c).fptr = s.fptr := rfl
@[simp] theorem State.encodeRow_fch (h c : Nat) : (s.encodeRow h c).fch = s.fch := rfl
@[simp] theorem State.encodeRow_fb (h c : Nat) : (s.encodeRow h c).fb = s.fb := rfl
@[simp] theorem State.encodeRow_fblk (h c : Nat) : (s.encodeRow h c).fblk = s.fblk := rfl
@[simp] theorem State.encodeRow_fslice (h c : Nat) : (s.encodeRow h c).fslice = s.fslice := rfl
@[simp] theorem State.encodeRow_freeQ (h c : Nat) : (s.encodeRow h c).freeQ = s.freeQ := rfl
@[simp] theorem State.encodeRow_validQ (h c : Nat) : (s.encodeRow h c).validQ = s.validQ := rfl
@[simp] theorem State.encodeRow_payload (h c : Nat) :
    (s.encodeRow h c).payload = Sparse.insert (3 * h + c) (s.sliceOf c) s.payload := rfl
@[simp] theorem State.encodeRow_sinkHeld (h c : Nat) :
    (s.encodeRow h c).sinkHeld = s.sinkHeld := rfl
@[simp] theorem State.encodeRow_par (h c : Nat) : (s.encodeRow h c).par = s.par := rfl
@[simp] theorem State.encodeRow_script (h c : Nat) : (s.encodeRow h c).script = s.script := rfl
@[simp] theorem State.encodeRow_tick (h c : Nat) : (s.encodeRow h c).tick = s.tick := rfl
@[simp] theorem State.encodeRow_epoch (h c : Nat) : (s.encodeRow h c).epoch = s.epoch := rfl
@[simp] theorem State.encodeRow_sample (h c : Nat) : (s.encodeRow h c).sample = s.sample := rfl
@[simp] theorem State.encodeRow_stream (h c : Nat) : (s.encodeRow h c).stream = s.stream := rfl
@[simp] theorem State.encodeRow_trace (h c : Nat) :
    (s.encodeRow h c).trace = s.trace ++ [.enc h c (s.sliceOf c)] := rfl

/-! ## `State.takeSample` -/

@[simp] theorem State.takeSample_strapCode : (s.takeSample).strapCode = s.strapCode := rfl
@[simp] theorem State.takeSample_profileTag : (s.takeSample).profileTag = s.profileTag := rfl
@[simp] theorem State.takeSample_pin : (s.takeSample).pin = s.pin := rfl
@[simp] theorem State.takeSample_mask : (s.takeSample).mask = s.mask := rfl
@[simp] theorem State.takeSample_mode : (s.takeSample).mode = s.mode := rfl
@[simp] theorem State.takeSample_cfgUnrecognised :
    (s.takeSample).cfgUnrecognised = s.cfgUnrecognised := rfl
@[simp] theorem State.takeSample_capState : (s.takeSample).capState = s.capState := rfl
@[simp] theorem State.takeSample_gate : (s.takeSample).gate = .arm := rfl
@[simp] theorem State.takeSample_dCnt : (s.takeSample).dCnt = s.dCnt := rfl
@[simp] theorem State.takeSample_y : (s.takeSample).y = s.y := rfl
@[simp] theorem State.takeSample_col : (s.takeSample).col = s.col := rfl
@[simp] theorem State.takeSample_phase : (s.takeSample).phase = s.phase := rfl
@[simp] theorem State.takeSample_s0 : (s.takeSample).s0 = s.s0 := rfl
@[simp] theorem State.takeSample_s1 : (s.takeSample).s1 = s.s1 := rfl
@[simp] theorem State.takeSample_i : (s.takeSample).i = s.i := rfl
@[simp] theorem State.takeSample_rawFrame : (s.takeSample).rawFrame = s.rawFrame := rfl
@[simp] theorem State.takeSample_stg : (s.takeSample).stg = s.stg := rfl
@[simp] theorem State.takeSample_zo : (s.takeSample).zo = s.zo := rfl
@[simp] theorem State.takeSample_o : (s.takeSample).o = s.o := rfl
@[simp] theorem State.takeSample_p : (s.takeSample).p = s.p := rfl
@[simp] theorem State.takeSample_slot0 : (s.takeSample).slot0 = s.slot0 := rfl
@[simp] theorem State.takeSample_slot1 : (s.takeSample).slot1 = s.slot1 := rfl
@[simp] theorem State.takeSample_displayPointer :
    (s.takeSample).displayPointer = s.displayPointer := rfl
@[simp] theorem State.takeSample_pins : (s.takeSample).pins = s.pins := rfl
@[simp] theorem State.takeSample_feedState : (s.takeSample).feedState = s.feedState := rfl
@[simp] theorem State.takeSample_fy : (s.takeSample).fy = s.fy := rfl
@[simp] theorem State.takeSample_fptr : (s.takeSample).fptr = s.fptr := rfl
@[simp] theorem State.takeSample_fch : (s.takeSample).fch = s.fch := rfl
@[simp] theorem State.takeSample_fb : (s.takeSample).fb = s.fb := rfl
@[simp] theorem State.takeSample_fblk : (s.takeSample).fblk = s.fblk := rfl
@[simp] theorem State.takeSample_fslice : (s.takeSample).fslice = s.fslice := rfl
@[simp] theorem State.takeSample_freeQ : (s.takeSample).freeQ = s.freeQ := rfl
@[simp] theorem State.takeSample_validQ : (s.takeSample).validQ = s.validQ := rfl
@[simp] theorem State.takeSample_payload : (s.takeSample).payload = s.payload := rfl
@[simp] theorem State.takeSample_sinkHeld : (s.takeSample).sinkHeld = s.sinkHeld := rfl
@[simp] theorem State.takeSample_par : (s.takeSample).par = s.par := rfl
@[simp] theorem State.takeSample_script : (s.takeSample).script = s.script := rfl
@[simp] theorem State.takeSample_tick : (s.takeSample).tick = s.tick := rfl
@[simp] theorem State.takeSample_epoch : (s.takeSample).epoch = s.epoch := rfl
@[simp] theorem State.takeSample_sample : (s.takeSample).sample = s.busByte := rfl
@[simp] theorem State.takeSample_stream : (s.takeSample).stream = s.stream ++ [s.busByte] := rfl
@[simp] theorem State.takeSample_trace : (s.takeSample).trace = s.trace := rfl

/-! ## `State.drive` -/

@[simp] theorem State.drive_strapCode (sel lv : PinWord) :
    (s.drive sel lv).strapCode = s.strapCode := rfl
@[simp] theorem State.drive_profileTag (sel lv : PinWord) :
    (s.drive sel lv).profileTag = s.profileTag := rfl
@[simp] theorem State.drive_pin (sel lv : PinWord) : (s.drive sel lv).pin = s.pin := rfl
@[simp] theorem State.drive_mask (sel lv : PinWord) : (s.drive sel lv).mask = s.mask := rfl
@[simp] theorem State.drive_mode (sel lv : PinWord) : (s.drive sel lv).mode = s.mode := rfl
@[simp] theorem State.drive_cfgUnrecognised (sel lv : PinWord) :
    (s.drive sel lv).cfgUnrecognised = s.cfgUnrecognised := rfl
@[simp] theorem State.drive_capState (sel lv : PinWord) :
    (s.drive sel lv).capState = s.capState := rfl
@[simp] theorem State.drive_gate (sel lv : PinWord) : (s.drive sel lv).gate = s.gate := rfl
@[simp] theorem State.drive_dCnt (sel lv : PinWord) : (s.drive sel lv).dCnt = s.dCnt := rfl
@[simp] theorem State.drive_y (sel lv : PinWord) : (s.drive sel lv).y = s.y := rfl
@[simp] theorem State.drive_col (sel lv : PinWord) : (s.drive sel lv).col = s.col := rfl
@[simp] theorem State.drive_phase (sel lv : PinWord) : (s.drive sel lv).phase = s.phase := rfl
@[simp] theorem State.drive_s0 (sel lv : PinWord) : (s.drive sel lv).s0 = s.s0 := rfl
@[simp] theorem State.drive_s1 (sel lv : PinWord) : (s.drive sel lv).s1 = s.s1 := rfl
@[simp] theorem State.drive_i (sel lv : PinWord) : (s.drive sel lv).i = s.i := rfl
@[simp] theorem State.drive_rawFrame (sel lv : PinWord) :
    (s.drive sel lv).rawFrame = s.rawFrame := rfl
@[simp] theorem State.drive_stg (sel lv : PinWord) : (s.drive sel lv).stg = s.stg := rfl
@[simp] theorem State.drive_zo (sel lv : PinWord) : (s.drive sel lv).zo = s.zo := rfl
@[simp] theorem State.drive_o (sel lv : PinWord) : (s.drive sel lv).o = s.o := rfl
@[simp] theorem State.drive_p (sel lv : PinWord) : (s.drive sel lv).p = s.p := rfl
@[simp] theorem State.drive_slot0 (sel lv : PinWord) : (s.drive sel lv).slot0 = s.slot0 := rfl
@[simp] theorem State.drive_slot1 (sel lv : PinWord) : (s.drive sel lv).slot1 = s.slot1 := rfl
@[simp] theorem State.drive_displayPointer (sel lv : PinWord) :
    (s.drive sel lv).displayPointer = s.displayPointer := rfl
@[simp] theorem State.drive_pins (sel lv : PinWord) :
    (s.drive sel lv).pins = drivePins s.par.nPins s.pins sel lv := rfl
@[simp] theorem State.drive_feedState (sel lv : PinWord) :
    (s.drive sel lv).feedState = s.feedState := rfl
@[simp] theorem State.drive_fy (sel lv : PinWord) : (s.drive sel lv).fy = s.fy := rfl
@[simp] theorem State.drive_fptr (sel lv : PinWord) : (s.drive sel lv).fptr = s.fptr := rfl
@[simp] theorem State.drive_fch (sel lv : PinWord) : (s.drive sel lv).fch = s.fch := rfl
@[simp] theorem State.drive_fb (sel lv : PinWord) : (s.drive sel lv).fb = s.fb := rfl
@[simp] theorem State.drive_fblk (sel lv : PinWord) : (s.drive sel lv).fblk = s.fblk := rfl
@[simp] theorem State.drive_fslice (sel lv : PinWord) : (s.drive sel lv).fslice = s.fslice := rfl
@[simp] theorem State.drive_freeQ (sel lv : PinWord) : (s.drive sel lv).freeQ = s.freeQ := rfl
@[simp] theorem State.drive_validQ (sel lv : PinWord) : (s.drive sel lv).validQ = s.validQ := rfl
@[simp] theorem State.drive_payload (sel lv : PinWord) : (s.drive sel lv).payload = s.payload := rfl
@[simp] theorem State.drive_sinkHeld (sel lv : PinWord) :
    (s.drive sel lv).sinkHeld = s.sinkHeld := rfl
@[simp] theorem State.drive_par (sel lv : PinWord) : (s.drive sel lv).par = s.par := rfl
@[simp] theorem State.drive_script (sel lv : PinWord) : (s.drive sel lv).script = s.script := rfl
@[simp] theorem State.drive_tick (sel lv : PinWord) : (s.drive sel lv).tick = s.tick := rfl
@[simp] theorem State.drive_epoch (sel lv : PinWord) : (s.drive sel lv).epoch = s.epoch := rfl
@[simp] theorem State.drive_sample (sel lv : PinWord) : (s.drive sel lv).sample = s.sample := rfl
@[simp] theorem State.drive_stream (sel lv : PinWord) : (s.drive sel lv).stream = s.stream := rfl
@[simp] theorem State.drive_trace (sel lv : PinWord) : (s.drive sel lv).trace = s.trace := rfl

end Sys2Proof.Machine
end

