-- ==== Sys2Proof/Laws/Ops.lean ====
section
/-!
SUPPORT. For each shared operation, once, everything it can do: a proof about a meaning cites these
and does not unfold the operation.
-/

namespace Sys2Proof.Machine

variable {s t : State} {f : Fault} {r : Refusal}

/-! ## Reading a memory after a write -/

theorem State.rawByte_setRaw (s : State) (off : Nat) (v : Byte) (a : Nat) :
    (s.setRaw off v).rawByte a = if a = off then v else s.rawByte a := by
  simp only [State.rawByte, State.setRaw_rawFrame, State.setRaw_epoch, Sparse.find_insert]
  split <;> rfl

theorem State.slotByte_setRaw (s : State) (off : Nat) (v : Byte) (k : Fin 2) (a : Nat) :
    (s.setRaw off v).slotByte k a = s.slotByte k a := rfl

theorem State.rawByte_setSlot (s : State) (k : Fin 2) (off : Nat) (v : Byte) (a : Nat) :
    (s.setSlot k off v).rawByte a = s.rawByte a := rfl

theorem State.slotByte_setSlot (s : State) (k : Fin 2) (off : Nat) (v : Byte) (j : Fin 2) (a : Nat) :
    (s.setSlot k off v).slotByte j a = if j = k ∧ a = off then v else s.slotByte j a := by
  have two : ∀ x : Fin 2, x = 0 ∨ x = 1 := by decide
  rcases two k with rfl | rfl <;> rcases two j with rfl | rfl <;>
    simp only [State.slotByte, State.slotMem, State.setSlot_slot0, State.setSlot_slot1,
      State.setSlot_epoch] <;>
    simp [Sparse.find_insert] <;> split <;> simp_all

/-- RawFrame is read from `rawFrame` and the epoch alone. -/
theorem State.rawByte_congr (h : t.rawFrame = s.rawFrame) (he : t.epoch = s.epoch) (a : Nat) :
    t.rawByte a = s.rawByte a := by
  simp [State.rawByte, h, he]

/-- A slot is read from the slot memories and the epoch alone. -/
theorem State.slotByte_congr (h0 : t.slot0 = s.slot0) (h1 : t.slot1 = s.slot1)
    (he : t.epoch = s.epoch) (k : Fin 2) (a : Nat) : t.slotByte k a = s.slotByte k a := by
  simp [State.slotByte, State.slotMem, h0, h1, he]

/-! ## The canonical form -/

/-- The four sparse maps of a state are canonical. -/
def State.MemoriesWf (s : State) : Prop :=
  Memory.wf s.rawFrame ∧ Memory.wf s.slot0 ∧ Memory.wf s.slot1 ∧ Sparse.Canonical s.payload

theorem State.resetWith_memoriesWf (par : Params) : (State.resetWith par).MemoriesWf :=
  ⟨Memory.wf_nil, Memory.wf_nil, Memory.wf_nil, List.Pairwise.nil⟩

theorem State.setRaw_memoriesWf (off : Nat) (v : Byte) (h : s.MemoriesWf) :
    (s.setRaw off v).MemoriesWf :=
  ⟨Memory.wf_insert off v h.1, h.2⟩

theorem State.setSlot_memoriesWf (k : Fin 2) (off : Nat) (v : Byte) (h : s.MemoriesWf) :
    (s.setSlot k off v).MemoriesWf := by
  obtain ⟨h1, h2, h3, h4⟩ := h
  unfold State.setSlot
  refine ⟨h1, ?_, ?_, h4⟩ <;> dsimp only <;> split <;>
    first | assumption | exact Memory.wf_insert off v (by assumption)

theorem State.encodeRow_memoriesWf (b c : Nat) (h : s.MemoriesWf) :
    (s.encodeRow b c).MemoriesWf :=
  ⟨h.1, h.2.1, h.2.2.1, Sparse.insert_canonical _ _ h.2.2.2⟩

/-! ## Bounded accesses -/

theorem State.readRaw_ok {off : Nat} {v : Byte} (h : s.readRaw off = .ok v) :
    off < Config.frameBytes ∧ v = s.rawByte off := by
  unfold State.readRaw at h
  split at h
  · cases h; exact ⟨‹_›, rfl⟩
  · cases h

theorem State.readRaw_of_lt {off : Nat} (h : off < Config.frameBytes) :
    s.readRaw off = .ok (s.rawByte off) := if_pos h

theorem State.writeRaw_ok {off : Nat} {v : Byte} (h : s.writeRaw off v = .ok t) :
    off < Config.frameBytes ∧ t = s.setRaw off v := by
  unfold State.writeRaw at h
  split at h
  · cases h; exact ⟨‹_›, rfl⟩
  · cases h

theorem State.writeRaw_of_lt {off : Nat} {v : Byte} (h : off < Config.frameBytes) :
    s.writeRaw off v = .ok (s.setRaw off v) := if_pos h

theorem State.readSlot_ok {k : Fin 2} {off : Nat} {v : Byte} (h : s.readSlot k off = .ok v) :
    off < Config.slotBytes ∧ v = s.slotByte k off := by
  unfold State.readSlot at h
  split at h
  · cases h; exact ⟨‹_›, rfl⟩
  · cases h

theorem State.readSlot_of_lt {k : Fin 2} {off : Nat} (h : off < Config.slotBytes) :
    s.readSlot k off = .ok (s.slotByte k off) := if_pos h

theorem State.writeSlot_ok {k : Fin 2} {off : Nat} {v : Byte} (h : s.writeSlot k off v = .ok t) :
    off < Config.slotBytes ∧ t = s.setSlot k off v := by
  unfold State.writeSlot at h
  split at h
  · cases h; exact ⟨‹_›, rfl⟩
  · cases h

theorem State.writeSlot_of_lt {k : Fin 2} {off : Nat} {v : Byte} (h : off < Config.slotBytes) :
    s.writeSlot k off v = .ok (s.setSlot k off v) := if_pos h

/-- A write inside a slice changes `fslice` alone, and in it that one byte. -/
theorem State.writeSlice_ok {c b : Nat} {v : Byte} (h : s.writeSlice c b v = .ok t) :
    ∃ (hc : c < 3) (hb : b < Config.bytesPerRow),
      t = { s with fslice := s.fslice.set c ((s.fslice[c]'hc).set b v hb) hc } := by
  unfold State.writeSlice at h
  split at h
  · rename_i hcb; cases h; exact ⟨hcb.1, hcb.2, rfl⟩
  · cases h

theorem State.writeSlice_of_lt {c b : Nat} {v : Byte} (hc : c < 3) (hb : b < Config.bytesPerRow) :
    s.writeSlice c b v =
      .ok { s with fslice := s.fslice.set c ((s.fslice[c]'hc).set b v hb) hc } :=
  dif_pos ⟨hc, hb⟩

theorem State.sliceOf_of_lt {c : Nat} (hc : c < 3) : s.sliceOf c = s.fslice[c]'hc := by
  simp [State.sliceOf, hc]

/-! ## Outcomes -/

theorem Result.ofExcept_next {e : Except Fault State} (h : Result.ofExcept e = .next t) :
    e = .ok t := by
  cases e with
  | ok u => cases h; rfl
  | error g => cases h

@[simp] theorem Result.ofExcept_ok (t : State) : Result.ofExcept (.ok t) = .next t := rfl

/-- A poll goes on or changes nothing. -/
theorem State.wait_next {sig : Signal} {lvl : Bool} {k : State → State}
    (h : s.wait sig lvl k = .next t) : (s.level sig = lvl ∧ t = k s) ∨ (s.level sig ≠ lvl ∧ t = s) := by
  unfold State.wait at h
  split at h
  · cases h; exact .inl ⟨‹_›, rfl⟩
  · cases h; exact .inr ⟨‹_›, rfl⟩

theorem State.wait_of_level {sig : Signal} {lvl : Bool} (k : State → State) (h : s.level sig = lvl) :
    s.wait sig lvl k = .next (k s) := by
  simp [State.wait, h]

theorem State.wait_of_not_level {sig : Signal} {lvl : Bool} (k : State → State)
    (h : s.level sig ≠ lvl) : s.wait sig lvl k = .next s := by
  simp [State.wait, h]

/-- One step of a clock-gated sample: an unsuccessful poll, a phase passed, or the delivered byte. -/
theorem State.gated_next {act : State → Byte → Result} (h : s.gated act = .next t) :
    (s.gate = .arm ∧ (t = s ∨ t = s.afterArm)) ∨ (s.gate = .fire ∧ (t = s ∨ t = s.afterFire)) ∨
    (s.gate = .read ∧ act s.takeSample s.busByte = .next t) := by
  unfold State.gated at h
  split at h
  · rename_i hg
    rcases State.wait_next h with h | h
    · exact .inl ⟨hg, .inr h.2⟩
    · exact .inl ⟨hg, .inl h.2⟩
  · rename_i hg
    rcases State.wait_next h with h | h
    · exact .inr (.inl ⟨hg, .inr h.2⟩)
    · exact .inr (.inl ⟨hg, .inl h.2⟩)
  · exact .inr (.inr ⟨‹_›, h⟩)

theorem State.gated_read {act : State → Byte → Result} (h : s.gate = .read) :
    s.gated act = act s.takeSample s.busByte := by
  simp [State.gated, h]

/-! ## Capture actions -/

theorem dstRow_lt (y : Nat) : dstRow y < Config.halfH := Nat.mod_lt _ (by decide)

theorem topOffset_lt {y col : Nat} (hc : col < Config.bytesPerRow) : topOffset y col < 16000 := by
  have := dstRow_lt y
  simp only [topOffset, Config.bytesPerRow, Config.halfH] at *
  omega

theorem bottomOffset_eq (y col : Nat) : bottomOffset y col = topOffset y col + 16000 := by
  simp only [topOffset, bottomOffset, Config.bytesPerRow, Config.halfH]
  omega

/-- What the second sample of a pair does, whenever it answers. -/
theorem State.takeS1_ok {b : Byte} (h : s.takeS1 b = .ok t) :
    topOffset s.y s.col < Config.frameBytes ∧ bottomOffset s.y s.col < Config.frameBytes ∧
    t = ((({ s with s1 := b }).setRaw (topOffset s.y s.col) (topByte s.s0 b)).setRaw
      (bottomOffset s.y s.col) (bottomByte s.s0 b)).nextPair := by
  unfold State.takeS1 at h
  simp only at h
  split at h
  · cases h
  · rename_i u hu
    obtain ⟨h1, rfl⟩ := State.writeRaw_ok hu
    split at h
    · cases h
    · rename_i v hv
      obtain ⟨h2, rfl⟩ := State.writeRaw_ok hv
      cases h
      exact ⟨h1, h2, rfl⟩

/-- The second sample of a pair answers for every position inside the frame. -/
theorem State.takeS1_of_lt (b : Byte) (hc : s.col < Config.bytesPerRow) :
    s.takeS1 b =
      .ok ((({ s with s1 := b }).setRaw (topOffset s.y s.col) (topByte s.s0 b)).setRaw
        (bottomOffset s.y s.col) (bottomByte s.s0 b)).nextPair := by
  have h1 := topOffset_lt (y := s.y) hc
  have h2 := bottomOffset_eq s.y s.col
  have h3 : topOffset s.y s.col < Config.frameBytes := lt_trans h1 (by decide)
  have h4 : bottomOffset s.y s.col < Config.frameBytes := by
    simp only [Config.frameBytes]
    omega
  simp [State.takeS1, State.writeRaw_of_lt, h3, h4]

theorem State.takeTft_ok {b : Byte} (h : s.takeTft b = .ok t) :
    s.i < Config.frameBytes ∧ t = (s.setRaw s.i b).nextByte := by
  unfold State.takeTft at h
  split at h
  · cases h
  · rename_i u hu
    obtain ⟨h1, rfl⟩ := State.writeRaw_ok hu
    cases h
    exact ⟨h1, rfl⟩

theorem State.takeTft_of_lt (b : Byte) (h : s.i < Config.frameBytes) :
    s.takeTft b = .ok (s.setRaw s.i b).nextByte := by
  simp [State.takeTft, State.writeRaw_of_lt h]

/-! ## Queues -/

theorem popHead_eq_some {q rest : List Nat} {h : Nat} : popHead q = some (h, rest) ↔ q = h :: rest := by
  cases q <;> simp [popHead]

theorem popHead_eq_none {q : List Nat} : popHead q = none ↔ q = [] := by
  cases q <;> simp [popHead]

theorem pushTail_eq_some {cap h : Nat} {q q' : List Nat} :
    pushTail cap q h = some q' ↔ q.length < cap ∧ q' = q ++ [h] := by
  unfold pushTail
  split <;> simp [*, eq_comm]

theorem pushTail_eq_none {cap h : Nat} {q : List Nat} : pushTail cap q h = none ↔ cap ≤ q.length := by
  unfold pushTail
  split <;> simp <;> omega

/-! ## Selection -/

theorem CapState.ofCode_code (c : CapState) : CapState.ofCode c.code = some c := by
  cases c <;> rfl

theorem unpackCsel_cselWord (c : CapState) (m : Mode) (g : Gate) (ph : Bool) :
    unpackCsel (cselWord c m g ph) = .ok (c, m, g, ph) := by
  cases c <;> cases m <;> cases g <;> cases ph <;> rfl

theorem feedState_ofCode_code (f : FeedState) : FeedState.ofCode f.code = some f := by
  cases f <;> rfl

/-- A move of CAP runs the operation its control state selects. -/
theorem runCap_eq (h : impossiblePair s.capState s.mode = false) :
    runCap s = exec (capOperation s.capState s.mode s.phase) s := by
  simp [runCap, h, runSelector, decode, State.csel, unpackCsel_cselWord]

theorem runFeed_eq (s : State) : runFeed s = exec (feedOperation s.feedState) s := by
  simp [runFeed, runSelector, decode, State.fsel, feedState_ofCode_code]

theorem sselWord_bits (a b : Bool) :
    (sselWord a b).getLsbD 1 = a ∧ (sselWord a b).getLsbD 0 = b := by
  cases a <;> cases b <;> decide

/-- A take moves the head of `valid_q` to `sink_held`, or changes nothing. -/
theorem runSink_take_eq (s : State) : runSink .take s = execSinkTakeValid s := by
  unfold runSink
  simp only [decode, State.ssel, (sselWord_bits _ _).1]
  cases hq : s.validQ <;> simp [State.takeGuard, hq, exec, execSinkTakeValid, popHead]

/-- A release moves the chosen held handle to `free_q`, or changes nothing. -/
theorem runSink_release_eq (h : Nat) (s : State) :
    runSink (.release h) s = execSinkReleaseFree h s := by
  unfold runSink
  simp only [decode, State.ssel, (sselWord_bits _ _).2]
  cases hg : s.releaseGuard with
  | true => simp [exec]
  | false =>
    simp only [State.releaseGuard, Bool.and_eq_false_iff, Bool.not_eq_false', List.isEmpty_iff,
      decide_eq_false_iff_not, not_lt] at hg
    rcases hg with hg | hg
    · simp [execSinkReleaseFree, hg]
    · simp [execSinkReleaseFree, pushTail_eq_none.2 hg]

/-- A step is a turn of the script or a move of the free schedule. -/
theorem step_cases (h : step s = .next t) :
    (∃ u rest, s.script = u :: rest ∧ runTurn u { s with script := rest } = .next t) ∨
    (s.script = [] ∧ runMove (Config.schedule s.tick) { s with tick := s.tick + 1 } = .next t) := by
  unfold step runNext at h
  split at h
  · rename_i u rest hs
    exact .inl ⟨u, rest, hs, h⟩
  · rename_i hs
    exact .inr ⟨hs, h⟩

end Sys2Proof.Machine
end

