-- ==== Sys2Proof/Laws/PerInstr.lean ====
section
/-!
SUPPORT. The per-row family `Selectable`: every row of the opcode table is selected by some word,
its own `encode`. One lemma per constructor of `Instr`.
-/

namespace Sys2Proof.Laws.Selectable

/-- Some selector word selects the row. -/
def Statement (i : Instr) : Prop := ∃ sel : Selector, decode sel = .ok i

theorem bootResolve : Statement .bootResolve := ⟨encode .bootResolve, rfl⟩
theorem buildMasks : Statement .buildMasks := ⟨encode .buildMasks, rfl⟩
theorem selectMode : Statement .selectMode := ⟨encode .selectMode, rfl⟩
theorem sampleByte : Statement .sampleByte := ⟨encode .sampleByte, rfl⟩
theorem waitForLevel (sig : Signal) (level : Bool) : Statement (.waitForLevel sig level) := by
  refine ⟨encode (.waitForLevel sig level), ?_⟩
  cases sig <;> cases level <;> rfl
theorem gatedSample : Statement .gatedSample := ⟨encode .gatedSample, rfl⟩
theorem dWaitFrameHigh : Statement .dWaitFrameHigh := ⟨encode .dWaitFrameHigh, rfl⟩
theorem dWaitFrameLow : Statement .dWaitFrameLow := ⟨encode .dWaitFrameLow, rfl⟩
theorem dDiscardLead : Statement .dDiscardLead := ⟨encode .dDiscardLead, rfl⟩
theorem dRowCaptureS0 : Statement .dRowCaptureS0 := ⟨encode .dRowCaptureS0, rfl⟩
theorem dRowCaptureS1 : Statement .dRowCaptureS1 := ⟨encode .dRowCaptureS1, rfl⟩
theorem dDone : Statement .dDone := ⟨encode .dDone, rfl⟩
theorem tWaitFrameHigh : Statement .tWaitFrameHigh := ⟨encode .tWaitFrameHigh, rfl⟩
theorem tSeqCapture : Statement .tSeqCapture := ⟨encode .tSeqCapture, rfl⟩
theorem tDone : Statement .tDone := ⟨encode .tDone, rfl⟩
theorem asmSelect : Statement .asmSelect := ⟨encode .asmSelect, rfl⟩
theorem asmZero : Statement .asmZero := ⟨encode .asmZero, rfl⟩
theorem asmCopy : Statement .asmCopy := ⟨encode .asmCopy, rfl⟩
theorem asmPublish : Statement .asmPublish := ⟨encode .asmPublish, rfl⟩
theorem fAcquire : Statement .fAcquire := ⟨encode .fAcquire, rfl⟩
theorem fReadPtr : Statement .fReadPtr := ⟨encode .fReadPtr, rfl⟩
theorem fReadEncode : Statement .fReadEncode := ⟨encode .fReadEncode, rfl⟩
theorem fSubmit : Statement .fSubmit := ⟨encode .fSubmit, rfl⟩
theorem fAdvance : Statement .fAdvance := ⟨encode .fAdvance, rfl⟩
theorem sinkTakeValid : Statement .sinkTakeValid := ⟨encode .sinkTakeValid, rfl⟩
theorem sinkReleaseFree (h : Nat) : Statement (.sinkReleaseFree h) :=
  ⟨encode (.sinkReleaseFree h), rfl⟩
theorem fSample (b : Byte) : Statement (.fSample b) := ⟨encode (.fSample b), rfl⟩
theorem fPair (s0 s1 : Byte) : Statement (.fPair s0 s1) :=
  ⟨.dataPair (s0 ++ s1), by
    have bits : ∀ j, (s0 ++ s1 : BitVec (8 + 8)).getLsbD j =
        if j < 8 then s1.getLsbD j else s0.getLsbD (j - 8) := fun j => BitVec.getLsbD_append
    have h0 : (s0 ++ s1 : BitVec 16).extractLsb' 8 8 = s0 := by
      apply BitVec.eq_of_getLsbD_eq
      intro j hj
      rw [BitVec.getLsbD_extractLsb', bits]
      simp [hj]
    have h1 : (s0 ++ s1 : BitVec 16).extractLsb' 0 8 = s1 := by
      apply BitVec.eq_of_getLsbD_eq
      intro j hj
      rw [BitVec.getLsbD_extractLsb', bits]
      simp [hj]
    simp [decode, h0, h1]⟩
theorem fTft (b : Byte) : Statement (.fTft b) := ⟨encode (.fTft b), rfl⟩
theorem fStrap (code : BitVec 2) : Statement (.fStrap code) := ⟨encode (.fStrap code), rfl⟩

end Sys2Proof.Laws.Selectable
end

