-- ==== Sys2Proof/Laws/Pins.lean ====
section
/-!
SUPPORT. Laws of the pin words, which are natural numbers read bit by bit (log entry 7), of one step of
BUS, and of a run.
-/

namespace Sys2Proof.Machine

variable {s : State} {n : Nat}

/-! ## One pin -/

@[simp] theorem pinLevel_pinBit (p q : PinId) : pinLevel (pinBit p) q = decide (p = q) := by
  simp [pinLevel, pinBit, Nat.one_shiftLeft, Nat.testBit_two_pow]

theorem pinBit_lt {p : PinId} (h : p < n) : pinBit p < 2 ^ n := by
  simpa [pinBit, Nat.one_shiftLeft] using Nat.pow_lt_pow_right (by decide) h

/-- A mask of one pin finds the level of that pin (R92). -/
@[simp] theorem maskHit_pinBit (w : PinWord) (p : PinId) : maskHit w (pinBit p) = pinLevel w p := by
  simp only [maskHit, pinBit, pinLevel, Nat.one_shiftLeft, Nat.and_two_pow]
  cases w.testBit p <;> simp

/-! ## The BitMaskTable (R24, R122) -/

theorem masksOf_get (t : PinTable) {k : Nat} (hk : k < 8) : (masksOf t)[k] = pinBit t.d[k] := by
  have key : ∀ k : Fin 8, (masksOf t)[k] = pinBit t.d[k] := by
    intro k
    fin_cases k <;> rfl
  exact key ⟨k, hk⟩

/-- The masks of a table whose identifiers are below `n` are values of `n` bits. -/
theorem masksOf_lt {t : PinTable} (h : t.Within n) {k : Nat} (hk : k < 8) : (masksOf t)[k] < 2 ^ n := by
  rw [masksOf_get t hk]
  exact pinBit_lt (h _ (by simp [PinTable.ids]))

/-! ## A step of BUS (R224) -/

/-- What a step of BUS leaves on each pin; there is no pin `n` or above. -/
theorem pinLevel_drivePins (n : Nat) (w sel levels : PinWord) (p : PinId) :
    pinLevel (drivePins n w sel levels) p =
      (decide (p < n) && if pinLevel sel p then pinLevel levels p else pinLevel w p) := by
  have bits : ∀ a b c d : Bool,
      (d && ((a || b) ^^ b || c && b)) = (d && if b = true then c else a) := by decide
  simp only [pinLevel, drivePins, Nat.testBit_mod_two_pow, Nat.testBit_or, Nat.testBit_xor,
    Nat.testBit_and]
  exact bits _ _ _ _

theorem drivePins_lt (n : Nat) (w sel levels : PinWord) : drivePins n w sel levels < 2 ^ n :=
  Nat.mod_lt _ (by positivity)

/-! ## Runs -/

/-- Each move a run completes takes the state before it to the state after it. -/
theorem runMove_of_mem_along {ms : List Move} {x : Took} (h : x ∈ along ms s) :
    runMove x.move x.before = .next x.after := by
  induction ms generalizing s with
  | nil => cases h
  | cons m ms ih =>
    unfold along at h
    split at h
    · rename_i t ht
      rcases List.mem_cons.1 h with rfl | h
      · exact ht
      · exact ih h
    · cases h

theorem prefixOf_succ (sched : Nat → Move) (run : Nat → State) (n : Nat) :
    prefixOf sched run (n + 1) = prefixOf sched run n ++ [tookAt sched run n] := by
  simp [prefixOf, List.range_succ]

/-- The run of a list of moves, one move longer. -/
theorem along_append {ms : List Move} {m : Move} {u v : State} (h : runMoves ms s = .next u)
    (hm : runMove m u = .next v) : along (ms ++ [m]) s = along ms s ++ [⟨u, m, v⟩] := by
  induction ms generalizing s with
  | nil =>
    cases h
    simp [along, hm]
  | cons m' ms ih =>
    unfold runMoves at h
    split at h
    · rename_i w hw
      simp [along, hw, ih h]
    · cases h
    · cases h

theorem runMoves_append {ms : List Move} {m : Move} {u : State} (h : runMoves ms s = .next u) :
    runMoves (ms ++ [m]) s = runMove m u := by
  induction ms generalizing s with
  | nil =>
    cases h
    simp only [List.nil_append, runMoves]
    generalize runMove m _ = r
    cases r <;> rfl
  | cons m' ms ih =>
    unfold runMoves at h
    split at h
    · rename_i w hw
      simp [runMoves, hw, ih h]
    · cases h
    · cases h

/-- A finite part of an infinite run is the run of the moves its schedule gives. -/
theorem IsRun.prefixOf_eq_along {sched : Nat → Move} {run : Nat → State} (h : IsRun sched run)
    (n : Nat) :
    runMoves ((List.range n).map sched) (run 0) = .next (run n) ∧
    prefixOf sched run n = along ((List.range n).map sched) (run 0) := by
  induction n with
  | zero => exact ⟨rfl, rfl⟩
  | succ n ih =>
    rw [List.range_succ, List.map_append, prefixOf_succ, ih.2]
    exact ⟨(runMoves_append ih.1).trans (h n), (along_append ih.1 (h n)).symm⟩

/-! ## What BUS sends (R264) -/

theorem Sending.afterAll_append (frames : Nat → List Byte × List Byte) (b : Sending)
    (xs ys : List Took) :
    b.afterAll frames (xs ++ ys) =
      (b.afterAll frames xs).bind fun c => c.afterAll frames ys := by
  induction xs generalizing b with
  | nil => rfl
  | cons x xs ih =>
    simp only [List.cons_append, Sending.afterAll]
    cases b.after frames x with
    | none => rfl
    | some c => exact ih c

/-- A move that enters no wait, resets nothing and presents no event and no period leaves what BUS
still owes as it was. -/
theorem Sending.after_of_quiet (frames : Nat → List Byte × List Byte) (b : Sending) {x : Took}
    (h1 : x.entersWait = false) (h2 : x.move ≠ .reset) (h3 : x.frameSync = false)
    (h4 : x.period = false) : b.after frames x = some b := by
  simp [Sending.after, h1, h2, h3, h4]

/-- The move that presents the event makes the periods of the next frame due. -/
theorem Sending.after_of_frameSync (frames : Nat → List Byte × List Byte) {b : Sending} {x : Took}
    (h1 : x.entersWait = false) (h2 : x.move ≠ .reset) (h3 : b.due = none) (h4 : x.frameSync = true)
    (h5 : ((frames b.next).1.length, (frames b.next).2.length) =
      passLengths x.before.mode x.before.par.dstnLeadDiscard) :
    b.after frames x =
      some { due := some ((frames b.next).1 ++ (frames b.next).2), next := b.next + 1 } := by
  simp [Sending.after, h1, h2, h3, h4, h5]

/-- What BUS owes after one more move of an infinite run. -/
theorem Sending.afterAll_prefixOf_succ (frames : Nat → List Byte × List Byte) {sched : Nat → Move}
    {run : Nat → State} {b : Sending} {n : Nat}
    (h : Sending.start.afterAll frames (prefixOf sched run n) = some b) :
    Sending.start.afterAll frames (prefixOf sched run (n + 1)) =
      b.after frames (tookAt sched run n) := by
  rw [prefixOf_succ, Sending.afterAll_append, h]
  simp only [Option.bind_some, Sending.afterAll]
  cases b.after frames (tookAt sched run n) <;> rfl

/-! ## The next step -/

/-- The next step is the next turn, in the state with that turn used up. -/
theorem step_upNext (s : State) :
    ∃ rest k, step s = runTurn s.upNext { s with script := rest, tick := k } := by
  unfold step runNext State.upNext
  split
  · exact ⟨_, s.tick, rfl⟩
  · rename_i hs
    exact ⟨[], s.tick + 1, by simp [hs, runTurn]⟩

end Sys2Proof.Machine
end

