-- ==== Sys2Proof/Tests/Slice0.lean ====
section
/-!
SUPPORT. Tests: words written out from the encoding tables, the smoke test of well-formedness, one
step of each row on the vectors of 95_test_vectors.md, and for every statement with hypotheses a
state that meets them. Expected values come from the spec's file named at each group.
-/

namespace Sys2Proof.Tests

open Sys2Proof Sys2Proof.Machine

/-! ## Helpers -/

/-- A value read off the next state of an outcome. -/
def got {α : Type} (r : Result) (f : State → α) : Option α :=
  match r with
  | .next t => some (f t)
  | _ => none

/-- The outcome is a fault or a refusal. -/
def stops (r : Result) : Bool :=
  match r with
  | .next _ => false
  | _ => true

/-- After reset, in the test configuration of 95 section 2 with 2 lead samples and `n` blocks. -/
def base (n : Nat) : State := State.resetWith (Config.testParams 2 n)

/-- Booted with strap code 1: profile T, mode DSTN. -/
def dstn (n : Nat) : State :=
  { base n with
      strapCode := 1#2, profileTag := .b, pin := Config.profileT
      mask := masksOf Config.profileT, mode := .dstn, capState := .waitFrameHigh }

/-- Booted with strap code 0: profile T, mode TFT. -/
def tft (n : Nat) : State :=
  { base n with
      strapCode := 0#2, profileTag := .a, pin := Config.profileT
      mask := masksOf Config.profileT, mode := .tft, capState := .waitFrameHigh }

/-- The TFT block with `PTR_SNAPSHOT = PER_PASS`, at output row `y`. -/
def perPass (y : Nat) : State :=
  { tft 2 with par := { Config.testParams 2 2 with ptrSnapshot := .perPass }, fy := y }

/-! ## Words (R104, R105, R110, R93, R95) -/

/-- `cap_state` 0000, `mode` 1, `gate` 00, `phase` 0. -/
theorem test_word_bootResolve : decode (.csel 0b00001000#8) = .ok .bootResolve := by decide
theorem test_word_buildMasks : decode (.inner .buildMasks 0b00000000#8) = .ok .buildMasks := by decide
theorem test_word_selectMode : decode (.inner .selectMode 0b00000000#8) = .ok .selectMode := by decide
/-- `SEQ_CAPTURE` 0101, TFT 1, `G_READ` 10, phase 0. -/
theorem test_word_sampleByte : decode (.inner .sampleByte 0b01011100#8) = .ok .sampleByte := by decide
/-- `SEQ_CAPTURE` 0101, TFT 1, `G_FIRE` 01, phase 0: no read of the bus here. -/
theorem test_word_sampleByte_not_firing :
    decode (.inner .sampleByte 0b01011010#8) = .error .rowNotSelected := by decide
/-- `WAIT_FRAME_LOW` 0010: the wait is for the frame sync at 0. -/
theorem test_word_waitForLevel_fsync :
    decode (.inner (.waitForLevel true) 0b00100000#8) = .ok (.waitForLevel .fsync false) := by decide
/-- `ROW_CAPTURE` 0100, `G_ARM` 00 with `L = 1`: the wait is for the clock at 0. -/
theorem test_word_waitForLevel_pclk :
    decode (.inner (.waitForLevel true) 0b01000000#8) = .ok (.waitForLevel .pclk false) := by decide
theorem test_word_gatedSample : decode (.inner .gatedSample 0b00110000#8) = .ok .gatedSample := by
  decide
/-- `WAIT_FRAME_HIGH` 0001 with `mode` 0 and with `mode` 1. -/
theorem test_word_waitFrameHigh :
    decode (.csel 0b00010001#8) = .ok .dWaitFrameHigh ∧
    decode (.csel 0b00011001#8) = .ok .tWaitFrameHigh := by decide
/-- `ROW_CAPTURE` 0100 with `phase` 0 and with `phase` 1. -/
theorem test_word_rowCapture :
    decode (.csel 0b01000010#8) = .ok .dRowCaptureS0 ∧
    decode (.csel 0b01000011#8) = .ok .dRowCaptureS1 := by decide
theorem test_word_asm :
    decode (.csel 0b01110000#8) = .ok .asmSelect ∧ decode (.csel 0b10000000#8) = .ok .asmZero ∧
    decode (.csel 0b10011101#8) = .ok .asmCopy ∧ decode (.csel 0b10100000#8) = .ok .asmPublish := by
  decide
theorem test_word_feed :
    decode (.fsel 0b000#3) = .ok .fAcquire ∧ decode (.fsel 0b011#3) = .ok .fSubmit ∧
    decode (.fsel 0b100#3) = .ok .fAdvance := by decide
/-- Both guards hold and both rows are enabled; with only bit 0 the take is not. -/
theorem test_word_sink :
    decode (.ssel .take 0b11#2) = .ok .sinkTakeValid ∧
    decode (.ssel (.release 1) 0b11#2) = .ok (.sinkReleaseFree 1) ∧
    decode (.ssel .take 0b01#2) = .error .rowNotSelected := by decide
/-- F-PAIR: TL, BL, TH, BH from the most significant bit down. -/
theorem test_word_pair :
    decode (.dataPair 0b1010010100111100#16) = .ok (.fPair 0xA5#8 0x3C#8) := by decide
theorem test_word_strap : decode (.dataStrap 0b01#2) = .ok (.fStrap 0b01#2) := by decide
/-- Reserved codes (R106): `cap_state` 11, `gate` 3, `feed_state` 5. -/
theorem test_word_reserved :
    decode (.csel 0b10110000#8) = .error .reservedCapState ∧
    decode (.csel 0b01000110#8) = .error .reservedGate ∧
    decode (.fsel 0b101#3) = .error .reservedFeedState := by decide
/-- Bare words of the table (log entry 9): csel words, an fsel word and a pair. -/
theorem test_table_words :
    decodeTableWord 8 0x41 = some .dRowCaptureS1 ∧ decodeTableWord 8 0x68 = some .tDone ∧
    decodeTableWord 8 2 = some .fReadEncode ∧
    decodeTableWord 16 0xA53C = some (.fPair 0xA5#8 0x3C#8) ∧ decodeTableWord 8 0xF0 = none := by
  decide

/-! ## Well-formedness -/

/-- Profile T with D0 on pin 40. -/
def widePins : PinTable := { Config.profileT with d := #v[40, 11, 12, 10, 0, 15, 6, 13] }

theorem test_wf_handle :
    (Instr.sinkReleaseFree 1).wellFormed (Config.testParams 0 2) = true ∧
    (Instr.sinkReleaseFree 2).wellFormed (Config.testParams 0 2) = false := by decide
theorem test_wf_params : (Config.testParams 0 1).WellFormed := by decide
/-- One identifier twice in a profile (R23). -/
theorem test_wf_duplicate_pin : ¬ ({ Config.profileT with pclk := 22 } : PinTable).WellFormed := by
  decide
/-- An identifier must be below `N_PINS` (R9, R23): pin 22 of profile T on a register of 22 bits. -/
theorem test_wf_pin_beyond_register : ¬ ({ Config.testParams 0 2 with nPins := 22 } : Params).WellFormed := by
  decide
/-- `N_PINS` is open (R9): a register of 64 bits with a data line on pin 40. -/
theorem test_wf_wide_register :
    ({ Config.testParams 0 2 with
        nPins := 64
        pinTable := #v[widePins, Config.profileT, Config.profileT] } : Params).WellFormed := by decide
theorem test_wf_no_block : ¬ (Config.testParams 0 0).WellFormed := by decide
theorem test_wf_small_free_queue :
    ¬ ({ Config.testParams 0 2 with freeCap := 1 } : Params).WellFormed := by decide
theorem test_wf_no_valid_queue :
    ¬ ({ Config.testParams 0 2 with validCap := 0 } : Params).WellFormed := by decide

/-! ## Resolver and sampler (95 sections 3.1 and 3.2) -/

/-- V-RES, `a = 1`, `b = 0`: code 1, profile B, DSTN. -/
theorem test_bootResolve :
    got (exec .bootResolve { base 2 with pins := 0x10 }) (fun t =>
      (t.strapCode, t.profileTag, t.mode, t.cfgUnrecognised, t.capState, t.pin.d[0])) =
      some (1#2, .b, .dstn, false, .waitFrameHigh, 22) := by decide
/-- V-RES and V-MASK, `a = b = 0`: code 3, no profile, TFT, every mask 1. -/
theorem test_bootResolve_code3 :
    got (exec .bootResolve (base 2)) (fun t =>
      (t.strapCode, t.profileTag, t.mode, t.cfgUnrecognised, t.mask)) =
      some (3#2, .none, .tft, true, Vector.replicate 8 1) := by decide
/-- V-MASK. -/
theorem test_buildMasks :
    got (exec .buildMasks { base 2 with pin := Config.profileT }) State.mask =
      some #v[0x00400000, 0x00000800, 0x00001000, 0x00000400, 0x00000001,
        0x00008000, 0x00000040, 0x00002000] := by decide
/-- The example of R123. -/
theorem test_selectMode :
    got (exec .selectMode { base 2 with strapCode := 1#2, mode := .tft }) State.mode =
      some .dstn := by decide
/-- V-RES, the row of code 2. -/
theorem test_fStrap :
    got (exec (.fStrap 2#2) (base 2)) (fun t => (t.strapCode, t.profileTag, t.mode)) =
      some (2#2, .c, .dstn) := by decide
/-- V-SB: pins 22, 12, 10, 6, 0. -/
theorem test_sampleByte :
    got (exec .sampleByte { dstn 2 with pins := 0x00401441 }) State.sample = some 0xBA#8 := by
  decide
/-- V-SB: every pin but the data pins. -/
theorem test_sampleByte_other_pins :
    got (exec .sampleByte { dstn 2 with pins := 0xFFBF43BE, sample := 7 }) State.sample =
      some 0x00#8 := by decide
/-- D0 on pin 40 of a register of 64 bits is bit 7 of the sample (R92). -/
theorem test_sampleByte_wide :
    got (exec .sampleByte { dstn 2 with
        par := { Config.testParams 2 2 with nPins := 64 }, pin := widePins
        mask := masksOf widePins, pins := 0x10000000000 }) State.sample = some 0x80#8 := by decide
/-- BUS has 32 pins: pin 40 does not exist, and pin 31 does (R40, R224). -/
theorem test_busDrive :
    got (runMove (.busDrive 0x10080000001 0x10080000000) { dstn 2 with pins := 0x5 }) State.pins =
      some 0x80000004 := by decide
theorem test_fSample : got (exec (.fSample 0x45#8) (dstn 2)) State.sample = some 0x45#8 := by decide
/-- V-WL: level already present; and not found. -/
theorem test_waitForLevel :
    got (exec (.waitForLevel .fsync true) { dstn 2 with pins := 0x4 }) State.capState =
      some .waitFrameLow ∧
    got (exec (.waitForLevel .fsync true) (dstn 2)) State.capState = some .waitFrameHigh := by decide
/-- V-GS, `L = 1`: `G_ARM` sees the clock at 0, `G_FIRE` at 1, `G_READ` reads the data then there. -/
theorem test_gatedSample :
    got (exec .gatedSample { dstn 2 with capState := .discardLead }) State.gate = some .fire ∧
    got (exec .gatedSample { dstn 2 with capState := .discardLead, gate := .fire, pins := 0x2 })
      State.gate = some .read ∧
    got (exec .gatedSample { dstn 2 with capState := .discardLead, gate := .read, pins := 0x2 })
      (fun t => (t.gate, t.dCnt, t.stream)) = some (.arm, 1, [0x00#8]) := by decide
/-- V-DATA: `DATA BA` sets pins 22, 12, 10, 0, 6. -/
theorem test_data_line :
    got (runMove (Line.toMove (dstn 2) (.data 0xBA#8)) (dstn 2)) State.pins = some 0x00401441 := by
  decide

/-! ## The premises on BUS (R262 to R264) -/

/-- A pass about to take its first lead sample: the clock is at 0, and CAP has not polled it. -/
def firstSample : State := { dstn 2 with capState := .discardLead }

/-- BD1 (R262): CAP must have polled the clock at 0 before BUS raises it. -/
theorem test_bd1 :
    levelsSeen .pclk false (along [.busDrive 2 2] firstSample) = false ∧
    levelsSeen .pclk false (along [.cap, .busDrive 2 2] firstSample) = true := by decide
/-- BD1 (R262): what was polled before a RESET does not count after it. -/
theorem test_bd1_reset :
    levelsSeen .pclk true (along [.reset, .cap, .busDrive 2 2] firstSample) = true ∧
    levelsSeen .pclk true ((along [.reset] firstSample) ++ along [.busDrive 2 2] firstSample) =
      false := by decide

/-- BD2 (R263): at `G_READ` the data line D4 of profile T may not change, though the clock has gone
back to 0 (pin 1 is the clock, pin 0 is D4). -/
theorem test_bd2 :
    let s : State := { firstSample with gate := .read }
    s.readDue = true ∧ (s.drive 1 1).pins &&& dataPins s.pin ≠ s.pins &&& dataPins s.pin ∧
    ({ firstSample with gate := .fire } : State).readDue = false := by decide

/-- Frames of zeros for a TFT block, and for a DSTN block with 2 lead samples. -/
def zeroFrames (lead : Nat) : Nat → List Byte × List Byte := fun _ =>
  (List.replicate lead 0#8, List.replicate 32000 0#8)

/-- BD3 (R264): the frame sync may not be at 1 when `BOOT_RESOLVE` enters `WAIT_FRAME_HIGH`, pin 2
being the frame sync and pin 4 the strap that is up for code 1. -/
theorem test_bd3_entry :
    Sending.start.afterAll (zeroFrames 2) (along [.busDrive 0x14 0x14, .cap] (base 2)) = none ∧
    Sending.start.afterAll (zeroFrames 2) (along [.busDrive 0x14 0x10, .cap] (base 2)) =
      some Sending.start := by decide
/-- BD3 (R264): a clock period after the frame-sync event and before CAP has seen the event, the last
period of a frame, and one after it. -/
theorem test_bd3_extra_period :
    Sending.afterAll (zeroFrames 2) { due := some [0#8], next := 1 }
      (along [.busDrive 2 2] { dstn 2 with capState := .waitFrameLow }) = none ∧
    Sending.afterAll (zeroFrames 2) { due := some [0#8], next := 1 }
      (along [.busDrive 2 2] firstSample) = some { due := some [], next := 1 } ∧
    Sending.afterAll (zeroFrames 2) { due := some [], next := 1 }
      (along [.busDrive 2 2] firstSample) = none := by decide
/-- BD3 (R264): BUS owes the event to a CAP that waits, and the periods still due wherever CAP stands. -/
theorem test_bd3_owes :
    Sending.start.owes (tft 2) = true ∧ Sending.start.owes (base 2) = false ∧
    Sending.owes { due := some [0#8], next := 1 } (tft 2) = true ∧
    Sending.owes { due := some [0#8], next := 1 } firstSample = true ∧
    Sending.owes { due := some [], next := 1 } firstSample = false := by decide

/-- A run on which what BUS owes stands unchanged for ever, with CAP moving for ever, does not meet
BD3. -/
theorem not_bd3_of_standing_debt {frames : Nat → List Byte × List Byte} {sched : Nat → Move}
    {run : Nat → State} (b : Sending) (m : Nat) (hc : ∀ n, sched (m + n) = .cap)
    (hb : ∀ n, Sending.start.afterAll frames (prefixOf sched run (m + n)) = some b)
    (ho : ∀ n, b.owes (run (m + n)) = true) : ¬ PremiseBD3Run frames sched run := by
  rintro ⟨-, -, ⟨k, hk⟩ | h⟩
  · exact (hk (m + k) (Nat.le_add_left k m)).1 (hc k)
  · obtain ⟨k, hk, hd⟩ := h m b (hb 0) (ho 0)
    obtain ⟨n, rfl⟩ := Nat.exists_eq_add_of_le (Nat.le_of_lt hk)
    rcases hd b (hb n) with hd | hd
    · exact hd rfl
    · rw [ho n] at hd
      cases hd

/-- CAP polls for ever and BUS never presents the frame sync: nothing forbidden happens on any prefix,
and yet the infinite run does not meet BD3 (R264). -/
theorem test_bd3_silent_bus :
    EveryPrefix (FramesIntact (zeroFrames 0)) (fun _ => .cap) (fun _ => tft 2) ∧
    ¬ PremiseBD3Run (zeroFrames 0) (fun _ => .cap) (fun _ => tft 2) := by
  have h : ∀ n, Sending.start.afterAll (zeroFrames 0) (prefixOf (fun _ => .cap) (fun _ => tft 2) n) =
      some Sending.start := by
    intro n
    induction n with
    | zero => rfl
    | succ n ih => exact (Sending.afterAll_prefixOf_succ _ ih).trans rfl
  refine ⟨fun n => ⟨fun x hx _ => ?_, by rw [h n]; rfl⟩,
    not_bd3_of_standing_debt Sending.start 0 (fun _ => rfl) (fun n => h _) fun _ => rfl⟩
  obtain ⟨k, -, rfl⟩ := List.mem_map.1 (List.mem_of_mem_head? hx)
  exact (by decide : (tft 2).level .fsync = false)

/-- BUS raises the frame sync, drops it before CAP polls, and is silent for ever. -/
def droppedSched : Nat → Move
  | 0 => .busDrive 4 4
  | 1 => .busDrive 4 0
  | _ => .cap

/-- The states of that run. -/
def droppedRun : Nat → State
  | 1 => { tft 2 with pins := 4 }
  | _ => tft 2

theorem droppedRun_isRun : IsRun droppedSched droppedRun
  | 0 => congrArg Host.Outcome.next (by decide : (tft 2).drive 4 4 = { tft 2 with pins := 4 })
  | 1 => congrArg Host.Outcome.next (by decide : ({ tft 2 with pins := 4 } : State).drive 4 0 = tft 2)
  | _ + 2 => (runCap_eq rfl).trans
      (State.wait_of_not_level State.afterHighTft (by decide : (tft 2).level .fsync ≠ true))

/-- That run presents an event and no clock period, and does not meet BD3 (R264: "no missing
period"). -/
theorem test_bd3_dropped_event (f : List Byte) (hf : f.length = 32000) :
    IsRun droppedSched droppedRun ∧
    ¬ PremiseBD3Run (fun _ => ([], f)) droppedSched droppedRun := by
  have h1 : Sending.start.afterAll (fun _ => ([], f)) (prefixOf droppedSched droppedRun 1) =
      some { due := some f, next := 1 } :=
    (Sending.afterAll_prefixOf_succ (n := 0) _ rfl).trans
      (Sending.after_of_frameSync _ (by decide) (by decide) rfl (by decide)
        (congrArg (Prod.mk 0) hf))
  have h2 : ∀ n, Sending.start.afterAll (fun _ => ([], f))
      (prefixOf droppedSched droppedRun (2 + n)) = some { due := some f, next := 1 } := by
    intro n
    induction n with
    | zero =>
      exact (Sending.afterAll_prefixOf_succ _ h1).trans
        (Sending.after_of_quiet _ _ (by decide) (by decide) (by decide) (by decide))
    | succ n ih =>
      have hx : tookAt droppedSched droppedRun (2 + n) = ⟨tft 2, .cap, tft 2⟩ := by
        rw [Nat.add_comm]
        rfl
      refine (Sending.afterAll_prefixOf_succ _ ih).trans ?_
      rw [hx]
      exact Sending.after_of_quiet _ _ (by decide) (by decide) (by decide) (by decide)
  have hne : f ≠ [] := fun h => by simp [h] at hf
  refine ⟨droppedRun_isRun, not_bd3_of_standing_debt { due := some f, next := 1 } 2 ?_ h2 ?_⟩
  · intro n
    rw [Nat.add_comm]
    rfl
  · intro n
    simp [Sending.owes, hne]

/-- BD3 (R98, R264): the frame-sync event of the mode, presented to a CAP that waits for it. -/
theorem test_bd3_event :
    (along [.busDrive 4 4] (tft 2)).map Took.frameSync = [true] ∧
    (along [.busDrive 4 4] (dstn 2)).map Took.frameSync = [false] ∧
    (along [.busDrive 4 0] { dstn 2 with capState := .waitFrameLow, pins := 4 }).map Took.frameSync =
      [true] ∧
    (along [.busDrive 4 4] { tft 2 with capState := .asmZero }).map Took.frameSync = [false] := by
  decide

/-! ## DSTN and TFT capture (95 sections 3.3 and 3.4) -/

theorem test_dWaitFrameHigh :
    got (exec .dWaitFrameHigh { dstn 2 with pins := 0x4 }) State.capState = some .waitFrameLow := by
  decide
/-- V-DSTATE: `D = 2`. -/
theorem test_dWaitFrameLow :
    got (exec .dWaitFrameLow { dstn 2 with capState := .waitFrameLow, dCnt := 1, gate := .read })
      (fun t => (t.capState, t.dCnt, t.gate)) = some (.discardLead, 0, .arm) := by decide
/-- V-DSTATE: `D = 0`. -/
theorem test_dWaitFrameLow_no_lead :
    got (exec .dWaitFrameLow { State.resetWith (Config.testParams 0 2) with
        capState := .waitFrameLow, y := 199, phase := true })
      (fun t => (t.capState, t.y, t.phase)) = some (.rowCapture, 0, false) := by decide
/-- V-DSTATE: the second of two lead samples. -/
theorem test_dDiscardLead :
    got (exec .dDiscardLead { dstn 2 with capState := .discardLead, gate := .read, dCnt := 1 })
      (fun t => (t.capState, t.dCnt)) = some (.rowCapture, 2) := by decide
/-- V-DSTATE: sample 0xA5 on the data pins. -/
theorem test_dRowCaptureS0 :
    got (exec .dRowCaptureS0 { dstn 2 with
        capState := .rowCapture, gate := .read, pins := dataLevels Config.profileT 0xA5#8 })
      (fun t => (t.s0, t.phase, t.rawFrame)) = some (0xA5#8, true, []) := by decide
/-- The example of R145. -/
theorem test_dRowCaptureS1 :
    got (exec .dRowCaptureS1 { dstn 2 with
        capState := .rowCapture, gate := .read, phase := true, s0 := 0xA5#8, col := 5
        pins := dataLevels Config.profileT 0x3C#8 })
      (fun t => (t.rawFrame, t.col, t.phase)) =
      some ([(85, 0x3A#8), (16085, 0xC5#8)], 6, false) := by decide
/-- V-PLACE: `y = 199`, `col = 79`. -/
theorem test_dRowCaptureS1_last :
    got (exec .dRowCaptureS1 { dstn 2 with
        capState := .rowCapture, gate := .read, phase := true, s0 := 0xFF#8, y := 199, col := 79 })
      (fun t => (t.rawFrame, t.y, t.col, t.capState)) =
      some ([(79, 0x0F#8), (16079, 0x0F#8)], 199, 0, .done) := by decide
/-- V-PAIR and V-PLACE: (0x12, 0x34) at `y = 1`, `col = 0`. -/
theorem test_fPair :
    got (exec (.fPair 0x12#8 0x34#8) { dstn 2 with capState := .rowCapture, y := 1 })
      (fun t => (t.rawFrame, t.col)) = some ([(160, 0x31#8), (16160, 0x42#8)], 1) := by decide
theorem test_done :
    got (exec .dDone { dstn 2 with capState := .done }) State.capState = some .asmSelect ∧
    got (exec .tDone { tft 2 with capState := .done }) State.capState = some .asmSelect := by decide
theorem test_tWaitFrameHigh :
    got (exec .tWaitFrameHigh { tft 2 with pins := 0x4, i := 31999, gate := .fire })
      (fun t => (t.capState, t.i, t.gate)) = some (.seqCapture, 0, .arm) := by decide
/-- The example of R162. -/
theorem test_tSeqCapture :
    got (exec .tSeqCapture { tft 2 with
        capState := .seqCapture, gate := .read, i := 81, pins := dataLevels Config.profileT 0x7E#8 })
      (fun t => (t.rawFrame, t.i)) = some ([(81, 0x7E#8)], 82) := by decide
/-- The last byte of a pass. -/
theorem test_fTft :
    got (exec (.fTft 0xFF#8) { tft 2 with capState := .seqCapture, i := 31999 })
      (fun t => (t.rawFrame, t.i, t.capState)) = some ([(31999, 0xFF#8)], 31999, .done) := by decide

/-! ## Assembler (95 section 3.5) -/

theorem test_asmSelect :
    got (exec .asmSelect { tft 2 with displayPointer := 0, zo := 95999 })
      (fun t => (t.stg, t.zo, t.capState)) = some (1, 0, .asmZero) := by decide
/-- The example of R172. -/
theorem test_asmZero_last :
    got (exec .asmZero { tft 2 with capState := .asmZero, stg := 1, zo := 95999, o := 31999, p := 2 })
      (fun t => (t.slot0, t.slot1, t.o, t.p, t.capState)) =
      some ([], [(95999, 0x00#8)], 0, 0, .asmCopy) := by decide
/-- The example of R173, the third of its steps. -/
theorem test_asmCopy :
    got (exec .asmCopy { tft 2 with
        capState := .asmCopy, stg := 1, o := 85, p := 2, rawFrame := [(85, 0x3A#8)] })
      (fun t => (t.slot1, t.o, t.p)) = some ([(64085, 0x3A#8)], 86, 0) := by decide
theorem test_asmCopy_last :
    got (exec .asmCopy { tft 2 with
        capState := .asmCopy, stg := 0, o := 31999, p := 2, rawFrame := [(31999, 1#8)] })
      (fun t => (t.slot0, t.capState)) = some ([(95999, 1#8)], .asmPublish) := by decide
theorem test_asmPublish :
    got (exec .asmPublish { tft 2 with capState := .asmPublish, stg := 1 })
      (fun t => (t.displayPointer, t.trace, t.capState)) =
      some (1, [.pub 1], .waitFrameHigh) := by decide

/-! ## Feeder and sink (95 section 3.6) -/

theorem test_fAcquire :
    got (exec .fAcquire { tft 3 with freeQ := [2, 0] })
      (fun t => (t.fblk, t.freeQ, t.trace, t.feedState)) =
      some (some 2, [0], [.acq 2], .readPtr) := by decide
/-- V-FEED: `PER_PASS`, `fy = 7`: no pointer read. -/
theorem test_fAcquire_per_pass :
    got (exec .fAcquire (perPass 7)) State.feedState = some .readEncode := by decide
theorem test_fReadPtr :
    got (exec .fReadPtr { tft 2 with feedState := .readPtr, displayPointer := 1, fch := 2, fb := 3 })
      (fun t => (t.fptr, t.fch, t.fb, t.feedState)) = some (1, 0, 0, .readEncode) := by decide
/-- V-FEED: `fptr = 1`, `fy = 1`, `fch = 2`, `fb = 0` reads offset 64080. -/
theorem test_fReadEncode :
    got (exec .fReadEncode { tft 2 with
        feedState := .readEncode, fptr := 1, fy := 1, fch := 2, slot1 := [(64080, 0x5A#8)] })
      (fun t => (t.fslice[2][0], t.fb)) = some (0x5A#8, 1) := by decide
/-- V-FEED: the last byte of the last slice. -/
theorem test_fReadEncode_last :
    got (exec .fReadEncode { tft 2 with
        feedState := .readEncode, fptr := 1, fy := 1, fch := 2, fb := 79, fblk := some 0
        slot1 := [(64159, 0x5A#8)] })
      (fun t => (t.trace, t.fb, t.feedState)) =
      some ([.enc 0 2 ((Vector.replicate 80 0#8).set 79 0x5A#8)], 0, .submit) := by decide
theorem test_fSubmit :
    got (exec .fSubmit { tft 2 with feedState := .submit, validQ := [0], fblk := some 2 })
      (fun t => (t.validQ, t.fblk, t.trace, t.feedState)) =
      some ([0, 2], none, [.sub 2], .advance) := by decide
/-- V-FEED: a full queue changes nothing. -/
theorem test_fSubmit_full :
    got (exec .fSubmit { tft 1 with feedState := .submit, validQ := [0], fblk := some 2 }) id =
      some { tft 1 with feedState := .submit, validQ := [0], fblk := some 2 } := by decide
theorem test_fAdvance :
    got (exec .fAdvance { tft 2 with feedState := .advance, fy := 399 })
      (fun t => (t.fy, t.feedState)) = some (0, .acquire) := by decide
theorem test_sinkTakeValid :
    got (exec .sinkTakeValid { tft 3 with validQ := [0, 2] }) (fun t => (t.validQ, t.sinkHeld)) =
      some ([2], [0]) := by decide
theorem test_sinkReleaseFree :
    got (exec (.sinkReleaseFree 2) { tft 3 with sinkHeld := [0, 2], freeQ := [1] })
      (fun t => (t.sinkHeld, t.freeQ)) = some ([0], [1, 2]) := by decide

/-! ## Placing a word and stepping -/

/-- A csel word placed after reset is the row the next step runs. -/
theorem test_place_asmSelect :
    got (step ((base 2).withFetchWord 8 0x70)) (fun t => (t.stg, t.capState)) =
      some (1, .asmZero) := by decide
/-- An fsel word; FEED is given a handle where the row needs one. -/
theorem test_place_submit :
    got (step ((base 2).withFetchWord 8 3)) (fun t => (t.validQ, t.freeQ)) = some ([0], [1]) := by
  decide
theorem test_place_pair :
    got (step ((base 2).withFetchWord 16 0xA53C)) State.rawFrame =
      some [(80, 0x3A#8), (16080, 0xC5#8)] := by decide
/-- The machine right after reset itself, whatever the board: `ASM_PUBLISH` placed and run. -/
theorem test_place_after_reset :
    got (step (State.reset.withFetchWord 8 0xA0)) State.trace = some [.pub 0] := by rfl

/-! ## Good states, for the witnesses -/

/-- The decidable part of the invariant. -/
abbrev Checks (s : State) : Prop :=
  s.par.WellFormed ∧ impossiblePair s.capState s.mode = false ∧
  (s.dCnt ≤ s.par.dstnLeadDiscard ∧ (s.capState = .discardLead → s.dCnt < s.par.dstnLeadDiscard)) ∧
  (s.y < 200 ∧ s.col < 80 ∧ s.i < 32000 ∧ s.zo < 96000 ∧ s.o < 32000 ∧ s.p < 3 ∧ s.fy < 400 ∧
    s.fch < 3 ∧ s.fb < 80) ∧
  (Memory.wf s.rawFrame ∧ Memory.Within 32000 s.rawFrame ∧ Memory.wf s.slot0 ∧
    Memory.Within 96000 s.slot0 ∧ Memory.wf s.slot1 ∧ Memory.Within 96000 s.slot1 ∧
    s.payload = []) ∧
  (assembling s.capState = true → s.stg = 1 - s.displayPointer) ∧
  s.fblk.isSome = holdsBlock s.feedState ∧
  s.handles.Perm (List.range s.par.nBlocks) ∧ s.sinkHeld.Pairwise (· < ·) ∧
  s.freeQ.length ≤ s.par.freeCap ∧ s.validQ.length ≤ s.par.validCap ∧
  s.pins < 2 ^ s.par.nPins ∧ (∀ k : Fin 8, s.mask[k] < 2 ^ s.par.nPins)

/-- A configured state whose next turn is one move meets the invariant when its checks hold. -/
theorem inv_of_checks {s : State} (m : Move) (hs : s.script = [.move m])
    (hb : s.capState ≠ .bootResolve) (hc : s.Configured) (h : Checks s) : s.Inv := by
  obtain ⟨h1, h2, ⟨h3, h4⟩, ⟨a1, a2, a3, a4, a5, a6, a7, a8, a9⟩, ⟨m1, m2, m3, m4, m5, m6, m7⟩,
    h5, h6, h7, h8, h9, h10, h11, h12⟩ := h
  exact
    { parWf := h1
      script := fun t ht => ⟨m, by simpa [hs] using ht⟩
      config := by simpa [hb] using hc
      pair := h2, dCnt := h3, dCntBelow := h4, y := a1, col := a2, i := a3, zo := a4, o := a5
      p := a6, fy := a7, fch := a8, fb := a9, rawWf := m1, rawWithin := m2, slot0Wf := m3
      slot0Within := m4, slot1Wf := m5, slot1Within := m6
      payloadWf := by simp [m7, Sparse.Canonical]
      payloadWithin := by simp [m7]
      staging := h5, holds := h6, handles := h7, sinkRising := h8, freeBound := h9
      validBound := h10, pinsWithin := h11, maskWithin := fun k hk => h12 ⟨k, hk⟩ }

theorem configured_dstn (n : Nat) : (dstn n).Configured := ⟨rfl, rfl, rfl, rfl, rfl⟩
theorem configured_tft (n : Nat) : (tft n).Configured := ⟨rfl, rfl, rfl, rfl, rfl⟩

/-- In the middle of a DSTN pass, with the second sample of the pair (0, 0) about to be read. -/
def midPass : State :=
  { dstn 2 with
      capState := .rowCapture, gate := .read, dCnt := 2, phase := true, s0 := 0xA5#8
      stream := [0x11#8, 0x22#8, 0xA5#8], script := [.move .cap] }

theorem inv_midPass : midPass.Inv :=
  inv_of_checks .cap rfl (by decide) (configured_dstn 2) (by decide)

/-- In the middle of `ASM_COPY`, one plane of offset 0 copied into the staging slot. -/
def midCopyOf (slot : Memory) : State :=
  { tft 2 with
      capState := .asmCopy, stg := 1, zo := 95999, o := 0, p := 1, rawFrame := [(0, 7#8)]
      slot1 := slot, script := [.move .cap] }

/-- In the middle of a row of FEED, one byte of the first slice read. -/
def midRow : State :=
  { tft 2 with
      feedState := .readEncode, fb := 1, fblk := some 0, freeQ := [1], slot0 := [(0, 9#8)]
      fslice := (Vector.replicate 3 (Vector.replicate 80 0#8)).set 0
        ((Vector.replicate 80 0#8).set 0 9#8)
      trace := [.acq 0], script := [.move .feed] }

theorem inv_midRow : midRow.Inv :=
  inv_of_checks .feed rfl (by decide) (configured_tft 2) (by decide)

/-- The same row while CAP stands in `ASM_ZERO` on the slot FEED reads. -/
def tearing : State := { midRow with capState := .asmZero, displayPointer := 1, stg := 0 }

theorem inv_tearing : tearing.Inv :=
  inv_of_checks .feed rfl (by decide) (configured_tft 2) (by decide)

/-- FEED about to submit. -/
def atSubmit : State :=
  { tft 2 with feedState := .submit, fblk := some 0, freeQ := [1], script := [.move .feed] }

theorem inv_atSubmit : atSubmit.Inv :=
  inv_of_checks .feed rfl (by decide) (configured_tft 2) (by decide)

/-- One block, submitted. -/
def oneBlock : State := { tft 1 with freeQ := [], validQ := [0], script := [.move .sinkTake] }

theorem inv_oneBlock : oneBlock.Inv :=
  inv_of_checks .sinkTake rfl (by decide) (configured_tft 1) (by decide)

/-- The SINK holds both blocks. -/
def held : State := { tft 2 with freeQ := [], sinkHeld := [0, 1], script := [.move .sinkTake] }

theorem inv_held : held.Inv :=
  inv_of_checks .sinkTake rfl (by decide) (configured_tft 2) (by decide)

theorem next_of_not_stops {r : Result} (h : stops r = false) : ∃ t, r = .next t := by
  cases r with
  | next t => exact ⟨t, rfl⟩
  | fault f => cases h
  | refused f => cases h

/-- A step answers where the row CAP's state selects does. -/
theorem steps_cap {s : State} (i : Instr) (hs : s.script = [.move .cap])
    (hp : impossiblePair s.capState s.mode = false)
    (hi : capOperation s.capState s.mode s.phase = i)
    (h : stops (exec i { s with script := [] }) = false) : ∃ t, step s = .next t := by
  obtain ⟨t, h⟩ := next_of_not_stops h
  refine ⟨t, ?_⟩
  rw [← h, ← hi]
  simp only [step, runNext, hs, runTurn, runMove]
  exact runCap_eq (s := { s with script := [] }) hp

/-- A step answers where the row FEED's state selects does. -/
theorem steps_feed {s : State} (i : Instr) (hs : s.script = [.move .feed])
    (hi : feedOperation s.feedState = i)
    (h : stops (exec i { s with script := [] }) = false) : ∃ t, step s = .next t := by
  obtain ⟨t, h⟩ := next_of_not_stops h
  refine ⟨t, ?_⟩
  rw [← h, ← hi]
  simp only [step, runNext, hs, runTurn, runMove]
  exact runFeed_eq { s with script := [] }

/-- The first `n` offsets holding 0. -/
def zeros (n : Nat) : Memory := (List.range n).map fun a => (a, 0#8)

theorem zeros_wf (n : Nat) : Memory.wf (zeros n) := by
  simp only [zeros, List.pairwise_map]
  exact List.pairwise_lt_range

theorem zeros_within (n : Nat) : Memory.Within n (zeros n) := by
  intro c hc
  obtain ⟨a, ha, rfl⟩ := List.mem_map.1 hc
  exact List.mem_range.1 ha

theorem find_zeros {n a : Nat} (h : a < n) : Sparse.find (zeros n) a = some 0#8 := by
  have key : ∀ l : List Nat, a ∈ l → Sparse.find (l.map fun a => (a, 0#8)) a = some 0#8 := by
    intro l
    induction l with
    | nil => intro h; cases h
    | cons x xs ih =>
      intro h
      by_cases hx : x = a
      · simp [Sparse.find, hx]
      · simpa [Sparse.find, hx] using ih ((List.mem_cons.1 h).resolve_left fun e => hx e.symm)
  exact key _ (List.mem_range.2 h)

/-- A TFT frame captured and copied, about to be published. -/
def atPublishOf (raw slot : Memory) (str : List Byte) : State :=
  { tft 2 with
      capState := .asmPublish, stg := 1, zo := 95999, o := 31999, i := 31999
      script := [.move .cap], rawFrame := raw, slot1 := slot, stream := str }

/-- The same frame published. -/
def publishedOf (raw slot : Memory) (str : List Byte) : State :=
  { atPublishOf raw slot str with
      capState := .waitFrameHigh, displayPointer := 1, trace := [.pub 1] }

theorem inv_atPublishOf {raw slot : Memory} {str : List Byte} (h1 : Memory.wf raw)
    (h2 : Memory.Within 32000 raw) (h3 : Memory.wf slot) (h4 : Memory.Within 96000 slot) :
    (atPublishOf raw slot str).Inv :=
  have h := inv_of_checks (s := atPublishOf [] [] []) .cap rfl (by decide) (configured_tft 2)
    (by decide)
  { h with rawWf := h1, rawWithin := h2, slot1Wf := h3, slot1Within := h4 }

theorem inv_publishedOf {raw slot : Memory} {str : List Byte} (h1 : Memory.wf raw)
    (h2 : Memory.Within 32000 raw) (h3 : Memory.wf slot) (h4 : Memory.Within 96000 slot) :
    (publishedOf raw slot str).Inv :=
  have h := inv_of_checks (s := publishedOf [] [] []) .cap rfl (by decide) (configured_tft 2)
    (by decide)
  { h with rawWf := h1, rawWithin := h2, slot1Wf := h3, slot1Within := h4 }

theorem atPublishOf_raw {n off : Nat} (slot : Memory) (str : List Byte) (h : off < n) :
    (atPublishOf (zeros n) slot str).rawByte off = 0#8 := by
  simp [State.rawByte, atPublishOf, find_zeros h]

theorem atPublishOf_slot {n off : Nat} (raw : Memory) (str : List Byte) (h : off < n) :
    (atPublishOf raw (zeros n) str).slotByte 1 off = 0#8 := by
  simp [State.slotByte, State.slotMem, atPublishOf, find_zeros h]

theorem capture_atPublishOf (slot : Memory) {n : Nat} (hn : n = 32000) :
    (atPublishOf (zeros n) slot (List.replicate n 0#8)).CaptureData := by
  refine ⟨List.length_replicate.trans hn, fun off h => ?_⟩
  have h : off < n := hn ▸ h
  rw [atPublishOf_raw _ _ h]
  show 0#8 = (List.replicate n 0#8).getD off 0#8
  simp

theorem planeOffset_lt {p off : Nat} (hp : p < 3) (ho : off < 32000) :
    planeOffset p off < 96000 := by
  simp only [planeOffset, Config.frameBytes]
  omega

theorem assembly_atPublishOf {n m : Nat} (hn : n = 32000) (hm : m = 96000) (str : List Byte) :
    (atPublishOf (zeros n) (zeros m) str).AssemblyData := fun _ hp _ ho =>
  (atPublishOf_slot (zeros n) str (hm ▸ planeOffset_lt hp ho)).trans
    (atPublishOf_raw (zeros m) str (hn ▸ ho)).symm

theorem planes_publishedOf {m : Nat} (hm : m = 96000) (raw : Memory) (str : List Byte) :
    (publishedOf raw (zeros m) str).PlanesEqual := fun _ _ hp _ ho =>
  (atPublishOf_slot raw str (hm ▸ planeOffset_lt hp ho)).trans
    (atPublishOf_slot raw str (hm ▸ lt_trans ho (by decide))).symm

/-- The state about to publish meets every premise of the statements about a publish. -/
theorem good_atPublishOf {n m : Nat} (hn : n = 32000) (hm : m = 96000) :
    let s := atPublishOf (zeros n) (zeros m) (List.replicate n 0#8)
    s.Inv ∧ s.CaptureData ∧ s.AssemblyData ∧ s.PlanesEqual ∧ s.capState = .asmPublish ∧
    (∃ t, runMove .cap s = .next t) ∧ ∃ t, step s = .next t :=
  ⟨inv_atPublishOf (zeros_wf _) (hn ▸ zeros_within n) (zeros_wf _) (hm ▸ zeros_within m),
    capture_atPublishOf _ hn, assembly_atPublishOf hn hm _,
    fun h => absurd h.choose_spec (List.not_mem_nil), rfl,
    ⟨_, (runCap_eq rfl).trans rfl⟩, steps_cap .asmPublish rfl rfl rfl rfl⟩

/-- The published state meets every premise of the statements about the published slot. -/
theorem good_publishedOf {n m : Nat} (hn : n = 32000) (hm : m = 96000) :
    let s := publishedOf (zeros n) (zeros m) (List.replicate n 0#8)
    s.Inv ∧ s.AssemblyData ∧ s.PlanesEqual ∧ s.HasPublished ∧ s.PointerParity ∧
    ∃ t, step s = .next t :=
  ⟨inv_publishedOf (zeros_wf _) (hn ▸ zeros_within n) (zeros_wf _) (hm ▸ zeros_within m),
    trivial, planes_publishedOf hm _ _, ⟨1, List.mem_singleton.2 rfl⟩, rfl,
    steps_cap .tWaitFrameHigh rfl rfl rfl rfl⟩

theorem inv_midCopyOf {slot : Memory} (h1 : Memory.wf slot) (h2 : Memory.Within 96000 slot) :
    (midCopyOf slot).Inv :=
  have h := inv_of_checks (s := midCopyOf []) .cap rfl (by decide) (configured_tft 2) (by decide)
  { h with slot1Wf := h1, slot1Within := h2 }

theorem midCopyOf_slot (slot : Memory) (a : Nat) :
    (midCopyOf slot).slotByte 1 a =
      (Sparse.find slot a).getD (Config.unspecifiedByte 0 (.slot 1) a) := rfl

/-- Offset 0 holds the copied 7, and every other byte of the staging slot is still 0. -/
theorem assembly_midCopyOf {m : Nat} (hm : m = 96000) :
    (midCopyOf (Sparse.insert 0 7#8 (zeros m))).AssemblyData := by
  intro n hn
  have hlt : planeOffset (n % 3) (n / 3) < m := by
    simp only [planeOffset, Config.frameBytes, Config.slotBytes] at *
    omega
  have h0 : planeOffset (n % 3) (n / 3) = 0 ↔ n = 0 := by
    simp only [planeOffset, Config.frameBytes]
    omega
  refine (midCopyOf_slot _ _).trans ?_
  rw [Sparse.find_insert, find_zeros hlt]
  show _ = if n < 1 then (midCopyOf _).rawByte (n / 3) else 0#8
  by_cases h : n = 0
  · subst h
    rfl
  · rw [if_neg (mt h0.1 h), if_neg (by omega)]
    rfl

theorem steps_midCopyOf (slot : Memory) :
    (∃ t, runMove .cap (midCopyOf slot) = .next t) ∧ ∃ t, step (midCopyOf slot) = .next t := by
  have h : ∀ s : State, s.o = 0 → s.p = 1 → stops (exec .asmCopy s) = false := by
    intro s ho hp
    have h1 : s.o < Config.frameBytes := ho ▸ (by decide)
    have h2 : planeOffset s.p s.o < Config.slotBytes := by rw [ho, hp]; decide
    simp [exec, execAsmCopy, State.readRaw_of_lt h1, State.writeSlot_of_lt h2, stops]
  obtain ⟨t, ht⟩ := next_of_not_stops (h (midCopyOf slot) rfl rfl)
  exact ⟨⟨t, (runCap_eq rfl).trans ht⟩, steps_cap .asmCopy rfl rfl rfl (h _ rfl rfl)⟩

/-- The slot zeroed and its first byte copied meets the premises of the copy's statement. -/
theorem good_midCopyOf {m : Nat} (hm : m = 96000) :
    let s := midCopyOf (Sparse.insert 0 7#8 (zeros m))
    s.Inv ∧ s.AssemblyData ∧ (∃ t, runMove .cap s = .next t) ∧ ∃ t, step s = .next t :=
  ⟨inv_midCopyOf (Memory.wf_insert _ _ (zeros_wf _))
      (Memory.within_insert (by decide) _ (hm ▸ zeros_within m)), assembly_midCopyOf hm,
    steps_midCopyOf _⟩

/-! ## Witnesses: for each statement with hypotheses, a state that meets them -/

theorem witness_ReservedCodesSelectNoRow :
    11 ≤ (0xB0#8).toNat / 16 ∧ ((0xA6#8).toNat / 16 < 11 ∧ (0xA6#8).toNat / 2 % 4 = 3) ∧
    5 ≤ (5#3).toNat := by decide

/-- The word 0x44 is a sampling state at `G_READ`. -/
theorem witness_RowsAreSelectedByMatchAndMask :
    (0x44#8) &&& 0x06#8 ≠ 0x06#8 ∧ (0x44#8) &&& 0xF0#8 = 0x40#8 ∧
    decode (.inner .sampleByte 0x44#8) = .ok .sampleByte := by decide

theorem witness_StepTakesTheNextMove :
    midPass.script = [Turn.move .cap] ∧ (base 2).script = [] := ⟨rfl, rfl⟩

theorem witness_StepRunsTheSelectedRow :
    (midPass.script = [.move .cap] ∧ impossiblePair midPass.capState midPass.mode = false ∧
      decode (.csel midPass.csel) = .ok .dRowCaptureS1) ∧
    (midRow.script = [.move .feed] ∧ decode (.fsel midRow.fsel) = .ok .fReadEncode) ∧
    (oneBlock.script = [.move .sinkTake] ∧
      decode (.ssel .take oneBlock.ssel) = .ok .sinkTakeValid) ∧
    (({ tft 1 with freeQ := [], sinkHeld := [0], script := [.move (.sinkRelease 0)] } : State).script =
        [.move (.sinkRelease 0)] ∧
      decode (.ssel (.release 0)
        ({ tft 1 with freeQ := [], sinkHeld := [0] } : State).ssel) = .ok (.sinkReleaseFree 0)) ∧
    (({ tft 1 with script := [.placed (.dataStrap 1#2)] } : State).script =
        [.placed (.dataStrap 1#2)] ∧ decode (.dataStrap 1#2) = .ok (.fStrap 1#2)) := by decide

theorem witness_ImpossibleCombinationsAreRefused :
    ({ tft 2 with capState := .rowCapture } : State).mode = .tft ∧
    ({ dstn 2 with capState := .seqCapture } : State).mode = .dstn := by decide

theorem witness_ResetMeetsTheInvariants : (Config.testParams 0 1).WellFormed := by decide

theorem witness_DataLineIsSampledBack :
    (dstn 2).pin.WellFormed ∧ (dstn 2).pin.Within (dstn 2).par.nPins ∧
    (dstn 2).mask = masksOf (dstn 2).pin ∧
    ∃ t, runMove (Line.toMove (dstn 2) (.data 0x81#8)) (dstn 2) = .next t :=
  ⟨by decide, by decide, rfl, _, rfl⟩

theorem witness_BootResolveResult :
    (1#2 : BitVec 2) = BitVec.ofBool (!pinLevel (0x10) 4) ++ BitVec.ofBool (!pinLevel (0x10) 3) := by
  decide

theorem witness_StrapCodeThreeReadsPinZero :
    (base 2).Unconfigured ∧ pinLevel (base 2).pins (base 2).par.strapPin0 = false ∧
    pinLevel (base 2).pins (base 2).par.strapPin1 = false :=
  ⟨⟨rfl, rfl, rfl, rfl⟩, by decide, by decide⟩

/-- A move of CAP in a pass, and a move of FEED while CAP stands in `BOOT_RESOLVE`. -/
theorem witness_ConfigurationIsImmutableAfterBoot :
    (midPass.capState ≠ .bootResolve ∧ Move.cap ≠ .reset ∧ ∃ t, runMove .cap midPass = .next t) ∧
    ((base 2).capState = .bootResolve ∧ Move.feed ≠ .cap ∧ Move.feed ≠ .reset ∧
      ∃ t, runMove .feed (base 2) = .next t) :=
  ⟨⟨by decide, by decide, _, rfl⟩, rfl, by decide, by decide, _, rfl⟩

theorem witness_WaitForLevelResult :
    (dstn 2).level .fsync ≠ true ∧
    ((dstn 2).level .pclk = false ∧ (dstn 2).awaited ≠ some (.pclk, false)) ∧
    (({ dstn 2 with capState := .discardLead } : State).level .pclk = false ∧
      ({ dstn 2 with capState := .discardLead } : State).awaited = some (.pclk, false) ∧
      ({ dstn 2 with capState := .discardLead } : State).capState.sampling = true) ∧
    (({ dstn 2 with pins := 4 } : State).level .fsync = true ∧
      ({ dstn 2 with pins := 4 } : State).awaited = some (.fsync, true) ∧
      ({ dstn 2 with pins := 4 } : State).capState = .waitFrameHigh) ∧
    (({ dstn 2 with capState := .waitFrameLow } : State).level .fsync = false ∧
      ({ dstn 2 with capState := .waitFrameLow } : State).awaited = some (.fsync, false)) := by decide

theorem witness_GatedSampleResult :
    ({ dstn 2 with capState := .discardLead } : State).gate = .arm ∧
    ({ dstn 2 with capState := .discardLead, gate := .fire } : State).gate = .fire ∧
    (midPass.capState.sampling = true ∧ midPass.gate = .read ∧ midPass.col < 80 ∧
      midPass.i < 32000) := by decide

theorem witness_PrimitivesAreTheEnclosingStep :
    impossiblePair (dstn 2).capState (dstn 2).mode = false ∧
    (dstn 2).awaited = some (.fsync, true) ∧ midPass.capState.sampling = true := by decide

theorem witness_DiscardLeadResult :
    ({ dstn 2 with capState := .discardLead, gate := .read, dCnt := 1 } : State).gate = .read := rfl

theorem witness_RowCaptureFirstSampleResult :
    ({ dstn 2 with capState := .rowCapture, gate := .read } : State).gate = .read := rfl

/-- At the last pair of a pass. -/
theorem witness_RowCaptureSecondSampleResult :
    let s : State := { midPass with y := 199, col := 79 }
    s.gate = .read ∧ s.col < 80 ∧ s.busByte = 0#8 ∧ 79 = (s.y + 1) % 200 * 80 + s.col ∧
    16079 = ((s.y + 1) % 200 + 200) * 80 + s.col := by decide

theorem witness_PairFormatResult :
    (dstn 2).col < 80 ∧ 80 = ((dstn 2).y + 1) % 200 * 80 + (dstn 2).col ∧
    16080 = (((dstn 2).y + 1) % 200 + 200) * 80 + (dstn 2).col := by decide

/-- At the last byte of a pass. -/
theorem witness_SeqCaptureResult :
    let s : State := { tft 2 with capState := .seqCapture, gate := .read, i := 31999 }
    s.gate = .read ∧ s.i < 32000 ∧ s.busByte = 0#8 := by decide

theorem witness_TftFormatResult : ({ tft 2 with i := 31999 } : State).i < 32000 := by decide

theorem witness_AsmZeroResult : ({ tft 2 with zo := 95999 } : State).zo < 96000 := by decide

theorem witness_AsmCopyResult :
    let s : State := { tft 2 with o := 31999, p := 2 }
    s.o < 32000 ∧ s.p < 3 ∧ 95999 = s.p * 32000 + s.o := by decide

theorem witness_AsmPublishResult :
    Move.feed ≠ .reset ∧ ∃ t, runMove .feed (base 2) = .next t := ⟨by decide, _, rfl⟩

/-- The last two are `PER_PASS` states, at row 0 and at row 7. -/
theorem witness_AcquireResult :
    oneBlock.freeQ = [] ∧ (base 2).freeQ = 0 :: [1] ∧
    ((perPass 0).freeQ = 0 :: [1] ∧ (perPass 0).par.ptrSnapshot ≠ .perRow ∧ (perPass 0).fy = 0) ∧
    ((perPass 7).freeQ = 0 :: [1] ∧
      ¬((perPass 7).par.ptrSnapshot = .perRow ∨ (perPass 7).fy = 0)) := by decide

theorem witness_ReadEncodeResult :
    (midRow.fch < 3 ∧ midRow.fy < 400 ∧ midRow.fb < 80 ∧ midRow.fb < 79) ∧
    (let s : State := { midRow with fb := 79, fch := 2, fy := 399 }
     s.fch < 3 ∧ s.fy < 400 ∧ s.fb = 79 ∧ s.fblk = some 0) := by decide

theorem witness_SubmitResult :
    (atSubmit.fblk = some 0 ∧ atSubmit.validQ.length < atSubmit.par.validCap) ∧
    (let s : State := { tft 1 with feedState := .submit, fblk := some 1, validQ := [0] }
     s.fblk = some 1 ∧ s.par.validCap ≤ s.validQ.length) := by decide

theorem witness_SinkTakeResult : (base 2).validQ = [] ∧ oneBlock.validQ = 0 :: [] := by decide

theorem witness_SinkReleaseResult :
    (0 ∉ (base 2).sinkHeld) ∧ (base 2).par.freeCap ≤ (base 2).freeQ.length ∧
    (let s : State := { tft 2 with freeQ := [1], sinkHeld := [0] }
     0 ∈ s.sinkHeld ∧ s.freeQ.length < s.par.freeCap ∧ s.sinkHeld.Nodup) := by decide

theorem witness_OnlyStuckAgentsMakeNoProgress : midPass.Inv := inv_midPass

theorem witness_EachAgentWritesItsOwnState :
    (∃ t, runMove .cap midPass = .next t) ∧ (∃ t, runMove .feed midRow = .next t) ∧
    (∃ t, runMove .sinkTake oneBlock = .next t) ∧ ∃ t, runMove (.sinkRelease 0) oneBlock = .next t :=
  ⟨next_of_not_stops (by decide), next_of_not_stops (by decide), ⟨_, rfl⟩, ⟨_, rfl⟩⟩

/-- While copying; `witness_atPublish` gives a state with `cap_state = ASM_PUBLISH`. -/
theorem witness_PublishedSlotIsNotWritten :
    (midCopyOf []).Inv ∧ ∃ t, runMove .cap (midCopyOf []) = .next t :=
  ⟨inv_midCopyOf List.Pairwise.nil (fun _ h => absurd h List.not_mem_nil), _, rfl⟩

/-- A black frame about to be published: the premises of `PublishedSlotIsNotWritten`,
`StepKeepsThePlanesEqual` and `PublishShowsTheFrameOfTheStream`. -/
theorem witness_atPublish :
    let s := atPublishOf (zeros 32000) (zeros 96000) (List.replicate 32000 0#8)
    s.Inv ∧ s.CaptureData ∧ s.AssemblyData ∧ s.PlanesEqual ∧ s.capState = .asmPublish ∧
    (∃ t, runMove .cap s = .next t) ∧ ∃ t, step s = .next t := good_atPublishOf rfl rfl

/-- The black frame published: the premises of `StepKeepsThePlanesEqual` and
`StepKeepsThePointerParity`. -/
theorem witness_published :
    let s := publishedOf (zeros 32000) (zeros 96000) (List.replicate 32000 0#8)
    s.Inv ∧ s.AssemblyData ∧ s.PlanesEqual ∧ s.HasPublished ∧ s.PointerParity ∧
    ∃ t, step s = .next t := good_publishedOf rfl rfl

theorem witness_CapacityGuardsNeverFail :
    (atSubmit.Inv ∧ atSubmit.par.nBlocks ≤ atSubmit.par.validCap ∧ atSubmit.feedState = .submit) ∧
    (held.Inv ∧ held.sinkHeld ≠ []) :=
  ⟨⟨inv_atSubmit, by decide, rfl⟩, inv_held, by decide⟩

theorem witness_OneBlockBackpressure :
    oneBlock.Inv ∧ oneBlock.par.nBlocks = 1 ∧ oneBlock.feedState = .acquire ∧
    oneBlock.validQ = [0] ∧ (∃ v, runMove .feed oneBlock = .next v) ∧
    ∃ t, runMove .sinkTake oneBlock = .next t ∧ ∃ v, runMove .feed t = .next v :=
  ⟨inv_oneBlock, rfl, rfl, rfl, ⟨_, rfl⟩, _, rfl, _, rfl⟩

theorem witness_StepKeepsTheInvariant : midPass.Inv ∧ ∃ t, step midPass = .next t :=
  ⟨inv_midPass, steps_cap .dRowCaptureS1 rfl rfl rfl rfl⟩

theorem witness_GoodStatesAlwaysStep : midRow.Inv := inv_midRow

theorem witness_StepKeepsTheCaptureData :
    midPass.Inv ∧ midPass.CaptureData ∧ ∃ t, step midPass = .next t :=
  ⟨inv_midPass, ⟨rfl, fun _ => rfl, fun k hk => absurd hk (Nat.not_lt_zero k)⟩,
    steps_cap .dRowCaptureS1 rfl rfl rfl rfl⟩

/-- The slot zeroed and its first byte copied, a 7. -/
theorem witness_StepKeepsTheAssemblyData :
    let s := midCopyOf (Sparse.insert 0 7#8 (zeros 96000))
    s.Inv ∧ s.AssemblyData ∧ (∃ t, runMove .cap s = .next t) ∧ ∃ t, step s = .next t :=
  good_midCopyOf rfl

theorem midRow_steps : ∃ t, step midRow = .next t :=
  steps_feed .fReadEncode rfl rfl (by decide)

theorem sliceData_midRow : midRow.SliceData := fun _ =>
  ⟨fun c hc => absurd hc (Nat.not_lt_zero c), fun b _ hb => by
    obtain rfl : b = 0 := Nat.lt_one_iff.1 hb
    rfl⟩

/-- The same row with CAP's move next, in a state where T1 holds. -/
def midRowCap : State := { midRow with script := [.move .cap] }

theorem inv_midRowCap : midRowCap.Inv :=
  inv_of_checks .cap rfl (by decide) (configured_tft 2) (by decide)

/-- FEED's move, in a state where CAP stands in `ASM_ZERO` on the slot being read; and CAP's move,
where T1 holds. -/
theorem witness_StepKeepsTheSliceDataUnderT1 :
    (tearing.Inv ∧ ¬ tearing.T1 ∧ (tearing.upNext = .move .cap → tearing.T1) ∧
      tearing.SliceData ∧ ∃ t, step tearing = .next t) ∧
    (midRowCap.Inv ∧ midRowCap.upNext = .move .cap ∧ midRowCap.T1 ∧ midRowCap.SliceData ∧
      ∃ t, step midRowCap = .next t) := by
  refine ⟨⟨inv_tearing, ?_, ?_, sliceData_midRow, steps_feed .fReadEncode rfl rfl (by decide)⟩,
    inv_midRowCap, rfl, ?_, sliceData_midRow, steps_cap .tWaitFrameHigh rfl rfl rfl rfl⟩
  · intro h
    exact h rfl (.inl rfl) rfl
  · intro h
    cases h
  · intro _ h
    rcases h with h | h <;> cases h

theorem witness_StepKeepsTheTraceShape :
    midRow.Inv ∧ midRow.TraceShape ∧ ∃ t, step midRow = .next t :=
  ⟨inv_midRow, ⟨[], rfl⟩, midRow_steps⟩

theorem witness_StepKeepsTheRowCount :
    midRow.Inv ∧ midRow.RowCount ∧ ∃ t, step midRow = .next t :=
  ⟨inv_midRow, ⟨rfl, rfl⟩, midRow_steps⟩

theorem witness_PublishFromReplicatesTheFrame :
    ({ tft 2 with capState := .asmSelect, rawFrame := [(5, 1#8)] } : State).capState = .asmSelect :=
  rfl

theorem witness_OneRowOfTheFeeder :
    (base 2).feedState = .acquire ∧ (base 2).freeQ = 0 :: [1] ∧
    (base 2).par.ptrSnapshot = .perRow ∧ (base 2).validQ.length < (base 2).par.validCap ∧
    (base 2).fy < 400 := by decide

end Sys2Proof.Tests
end

/-! # The next move of a step (R14, R56) -/

namespace Sys2Proof.Machine

variable {s : State}

@[simp] theorem runTurn_move (m : Move) (s : State) : runTurn (.move m) s = runMove m s := rfl

/-- With a script, a step runs the turn at its head, a move or a placed word, with that turn used
up. -/
theorem step_of_script_cons {u : Turn} {rest : List Turn} (hs : s.script = u :: rest) :
    step s = runTurn u { s with script := rest } := by
  simp only [step, runNext, hs]

/-- With an empty script, a step runs the free schedule's move at `tick`, with `tick` counted up. -/
theorem step_of_script_nil (hs : s.script = []) :
    step s = runMove (Config.schedule s.tick) { s with tick := s.tick + 1 } := by
  simp only [step, runNext, hs]

/-- Settles O6, by the two forms of the script: a move at the head of a script is a turn of it, and
where no turn is left the free schedule gives the move. -/
theorem stepTakesTheNextMove : Obligations.StepTakesTheNextMove := by
  unfold Obligations.StepTakesTheNextMove
  constructor
  · intro s m rest hs
    rw [step_of_script_cons hs, runTurn_move]
  · intro s hs
    exact step_of_script_nil hs

end Sys2Proof.Machine

/-! # What a move of each agent can do (R20, R102)

One inversion per agent: the states a move can answer, with the control state that selects it. The
poll's level is left out, since a poll that fails answers the same state.
-/

namespace Sys2Proof.Machine

variable {s t : State}

/-- The state `BOOT_RESOLVE` leaves (R121 to R123). -/
def State.booted (s : State) : State :=
  { (s.latchStrap s.strapOnPins).buildMasks.selectMode with capState := .waitFrameHigh }

/-- The two reconstructed bytes of a pair stored, the second sample just read (R145). -/
def State.pairStored (s : State) : State :=
  (({ s.takeSample with s1 := s.busByte }).setRaw (topOffset s.y s.col)
    (topByte s.s0 s.busByte)).setRaw (bottomOffset s.y s.col) (bottomByte s.s0 s.busByte)

/-- What a move of CAP that answers can do, one case per branch of the rows of R102. -/
inductive CapStep (s : State) : State → Prop where
  /-- an unsuccessful poll -/
  | waiting : CapStep s s
  | boot (hc : s.capState = .bootResolve) : CapStep s s.booted
  | highDstn (hc : s.capState = .waitFrameHigh) (hm : s.mode = .dstn) : CapStep s s.afterHighDstn
  | highTft (hc : s.capState = .waitFrameHigh) (hm : s.mode = .tft) : CapStep s s.afterHighTft
  | low (hc : s.capState = .waitFrameLow) : CapStep s s.afterLowDstn
  | armed (hc : s.capState.sampling = true) (hg : s.gate = .arm) : CapStep s s.afterArm
  | fired (hc : s.capState.sampling = true) (hg : s.gate = .fire) : CapStep s s.afterFire
  | lead (hc : s.capState = .discardLead) (hg : s.gate = .read) :
      CapStep s s.takeSample.discardLead
  | first (hc : s.capState = .rowCapture) (hph : s.phase = false) (hg : s.gate = .read) :
      CapStep s (s.takeSample.takeS0 s.busByte)
  | second (hc : s.capState = .rowCapture) (hph : s.phase = true) (hg : s.gate = .read)
      (htop : topOffset s.y s.col < Config.frameBytes)
      (hbot : bottomOffset s.y s.col < Config.frameBytes) : CapStep s s.pairStored.nextPair
  | byte (hc : s.capState = .seqCapture) (hg : s.gate = .read) (hi : s.i < Config.frameBytes) :
      CapStep s (s.takeSample.setRaw s.i s.busByte).nextByte
  | done (hc : s.capState = .done) : CapStep s { s with capState := .asmSelect }
  | select (hc : s.capState = .asmSelect) :
      CapStep s { s with stg := 1 - s.displayPointer, zo := 0, capState := .asmZero }
  | zero (hc : s.capState = .asmZero) (hzo : s.zo < Config.slotBytes) :
      CapStep s (s.setSlot s.stg s.zo 0#8).nextZero
  | copy (hc : s.capState = .asmCopy) (ho : s.o < Config.frameBytes)
      (hpo : planeOffset s.p s.o < Config.slotBytes) :
      CapStep s (s.setSlot s.stg (planeOffset s.p s.o) (s.rawByte s.o)).nextCopy
  | publish (hc : s.capState = .asmPublish) :
      CapStep s
        { s.emit (.pub s.stg) with displayPointer := s.stg, capState := .waitFrameHigh }

theorem exec_dDiscardLead (s : State) :
    exec .dDiscardLead s = s.gated fun t _ => .next t.discardLead := rfl

theorem exec_dRowCaptureS0 (s : State) :
    exec .dRowCaptureS0 s = s.gated fun t b => .next (t.takeS0 b) := rfl

theorem exec_dRowCaptureS1 (s : State) :
    exec .dRowCaptureS1 s = s.gated fun t b => Result.ofExcept (t.takeS1 b) := rfl

theorem exec_tSeqCapture (s : State) :
    exec .tSeqCapture s = s.gated fun t b => Result.ofExcept (t.takeTft b) := rfl

/-- The three phases of a sample in a sampling state, the read left to the row that takes it. -/
theorem CapStep.of_gated {act : State → Byte → Result} (hc : s.capState.sampling = true)
    (h : s.gated act = .next t)
    (hread : s.gate = .read → act s.takeSample s.busByte = .next t → CapStep s t) :
    CapStep s t := by
  rcases State.gated_next h with ⟨hg, rfl | rfl⟩ | ⟨hg, rfl | rfl⟩ | ⟨hg, ha⟩
  · exact .waiting
  · exact .armed hc hg
  · exact .waiting
  · exact .fired hc hg
  · exact hread hg ha

theorem CapStep.of_rowCapture (hc : s.capState = .rowCapture)
    (h : exec (if s.phase then .dRowCaptureS1 else .dRowCaptureS0) s = .next t) :
    CapStep s t := by
  have hs : s.capState.sampling = true := by rw [hc]; rfl
  cases hph : s.phase with
  | false =>
    rw [hph] at h
    refine .of_gated hs ((exec_dRowCaptureS0 s).symm.trans h) fun hg ha => ?_
    cases ha
    exact .first hc hph hg
  | true =>
    rw [hph] at h
    refine .of_gated hs ((exec_dRowCaptureS1 s).symm.trans h) fun hg ha => ?_
    obtain ⟨htop, hbot, rfl⟩ := State.takeS1_ok (Result.ofExcept_next ha)
    exact .second hc hph hg htop hbot

theorem CapStep.of_asmZero (hc : s.capState = .asmZero) (h : execAsmZero s = .next t) :
    CapStep s t := by
  unfold execAsmZero at h
  split at h
  · cases h
  · rename_i u hu
    obtain ⟨hzo, rfl⟩ := State.writeSlot_ok hu
    cases h
    exact .zero hc hzo

theorem CapStep.of_asmCopy (hc : s.capState = .asmCopy) (h : execAsmCopy s = .next t) :
    CapStep s t := by
  unfold execAsmCopy at h
  split at h
  · cases h
  · rename_i v hv
    obtain ⟨ho, rfl⟩ := State.readRaw_ok hv
    split at h
    · cases h
    · rename_i u hu
      obtain ⟨hpo, rfl⟩ := State.writeSlot_ok hu
      cases h
      exact .copy hc ho hpo

/-- A move of CAP that answers is not refused by R106, and is one of the branches. -/
theorem capStep_of_runCap (h : runCap s = .next t) :
    impossiblePair s.capState s.mode = false ∧ CapStep s t := by
  have hp : impossiblePair s.capState s.mode = false := by
    cases hp : impossiblePair s.capState s.mode with
    | false => rfl
    | true =>
      rw [runCap, if_pos hp] at h
      cases h
  refine ⟨hp, ?_⟩
  rw [runCap_eq hp] at h
  cases hc : s.capState <;> rw [hc] at h
  case bootResolve => cases h; exact .boot hc
  case waitFrameHigh =>
    cases hm : s.mode <;> rw [hm] at h
    case dstn =>
      rcases State.wait_next h with ⟨-, rfl⟩ | ⟨-, rfl⟩
      · exact .highDstn hc hm
      · exact .waiting
    case tft =>
      rcases State.wait_next h with ⟨-, rfl⟩ | ⟨-, rfl⟩
      · exact .highTft hc hm
      · exact .waiting
  case waitFrameLow =>
    rcases State.wait_next h with ⟨-, rfl⟩ | ⟨-, rfl⟩
    · exact .low hc
    · exact .waiting
  case discardLead =>
    refine .of_gated (by rw [hc]; rfl) ((exec_dDiscardLead s).symm.trans h) fun hg ha => ?_
    cases ha
    exact .lead hc hg
  case rowCapture => exact .of_rowCapture hc h
  case seqCapture =>
    refine .of_gated (by rw [hc]; rfl) ((exec_tSeqCapture s).symm.trans h) fun hg ha => ?_
    obtain ⟨hi, rfl⟩ := State.takeTft_ok (Result.ofExcept_next ha)
    exact .byte hc hg hi
  case done => cases hm : s.mode <;> rw [hm] at h <;> cases h <;> exact .done hc
  case asmSelect => cases h; exact .select hc
  case asmZero => exact .of_asmZero hc h
  case asmCopy => exact .of_asmCopy hc h
  case asmPublish => cases h; exact .publish hc

/-- The byte `F_READ_ENCODE` reads, written into the slice of its channel (R190). -/
def State.collected (s : State) (hc : s.fch < 3) (hb : s.fb < Config.bytesPerRow) : State :=
  { s with fslice := s.fslice.set s.fch ((s.fslice[s.fch]'hc).set s.fb
      (s.slotByte s.fptr (sliceOffset s.fch s.fy s.fb)) hb) hc }

/-- What a move of FEED that answers can do (R188 to R192). -/
inductive FeedStep (s : State) : State → Prop where
  /-- a step of a blocked queue -/
  | blocked : FeedStep s s
  | acquire {h : Nat} {rest : List Nat} (hf : s.feedState = .acquire) (hq : s.freeQ = h :: rest) :
      FeedStep s (s.acquired h rest)
  | readPtr (hf : s.feedState = .readPtr) :
      FeedStep s
        { s with fptr := s.displayPointer, fch := 0, fb := 0, feedState := .readEncode }
  | collect (hf : s.feedState = .readEncode) (hc : s.fch < 3) (hb : s.fb < Config.bytesPerRow)
      (hlast : s.fb < Config.bytesPerRow - 1) :
      FeedStep s { s.collected hc hb with fb := s.fb + 1 }
  | encode {h : Nat} (hf : s.feedState = .readEncode) (hc : s.fch < 3)
      (hb : s.fb < Config.bytesPerRow) (hlast : ¬ s.fb < Config.bytesPerRow - 1)
      (hh : s.fblk = some h) : FeedStep s ((s.collected hc hb).encodeRow h s.fch).nextChannel
  | submit {h : Nat} (hf : s.feedState = .submit) (hh : s.fblk = some h)
      (hq : s.validQ.length < s.par.validCap) :
      FeedStep s { s.emit (.sub h) with
        validQ := s.validQ ++ [h], fblk := none, feedState := .advance }
  | advance (hf : s.feedState = .advance) :
      FeedStep s
        { s with fy := if s.fy < Config.height - 1 then s.fy + 1 else 0, feedState := .acquire }

theorem FeedStep.of_readEncode (hf : s.feedState = .readEncode)
    (h : execFReadEncode s = .next t) : FeedStep s t := by
  unfold execFReadEncode at h
  split at h
  · cases h
  · rename_i v hv
    obtain ⟨-, rfl⟩ := State.readSlot_ok hv
    split at h
    · cases h
    · rename_i u hu
      obtain ⟨hc, hb, rfl⟩ := State.writeSlice_ok hu
      split at h
      · rename_i hlast
        cases h
        exact .collect hf hc hb hlast
      · rename_i hlast
        split at h
        · cases h
        · rename_i b hh
          cases h
          exact .encode hf hc hb hlast hh

theorem FeedStep.of_submit (hf : s.feedState = .submit) (h : execFSubmit s = .next t) :
    FeedStep s t := by
  unfold execFSubmit at h
  split at h
  · cases h
  · rename_i b hh
    cases hq : pushTail s.par.validCap s.validQ b with
    | none =>
      rw [hq] at h
      cases h
      exact .blocked
    | some q =>
      rw [hq] at h
      obtain ⟨hlen, rfl⟩ := pushTail_eq_some.1 hq
      cases h
      exact .submit hf hh hlen

theorem feedStep_of_runFeed (h : runFeed s = .next t) : FeedStep s t := by
  rw [runFeed_eq] at h
  cases hf : s.feedState <;> rw [hf] at h
  case acquire =>
    change execFAcquire s = .next t at h
    unfold execFAcquire at h
    cases hq : s.freeQ with
    | nil =>
      rw [hq] at h
      cases h
      exact .blocked
    | cons b rest =>
      rw [hq] at h
      cases h
      exact .acquire hf hq
  case readPtr => cases h; exact .readPtr hf
  case readEncode => exact .of_readEncode hf h
  case submit => exact .of_submit hf h
  case advance => cases h; exact .advance hf

/-- What a move of SINK can do, the two queue steps of R226 and R227. -/
inductive SinkStep (s : State) : State → Prop where
  /-- a step that is not enabled -/
  | disabled : SinkStep s s
  | take {h : Nat} {rest : List Nat} (hq : s.validQ = h :: rest) :
      SinkStep s { s with validQ := rest, sinkHeld := HandleSet.insert h s.sinkHeld }
  | release {h : Nat} (hh : h ∈ s.sinkHeld) (hq : s.freeQ.length < s.par.freeCap) :
      SinkStep s { s with sinkHeld := s.sinkHeld.erase h, freeQ := s.freeQ ++ [h] }

theorem sinkStep_of_take (h : runSink .take s = .next t) : SinkStep s t := by
  rw [runSink_take_eq] at h
  unfold execSinkTakeValid at h
  cases hq : s.validQ with
  | nil =>
    rw [hq] at h
    cases h
    exact .disabled
  | cons b rest =>
    rw [hq] at h
    cases h
    exact .take hq

theorem sinkStep_of_release {b : Nat} (h : runSink (.release b) s = .next t) : SinkStep s t := by
  rw [runSink_release_eq] at h
  unfold execSinkReleaseFree at h
  split at h
  · rename_i hh
    cases hq : pushTail s.par.freeCap s.freeQ b with
    | none =>
      rw [hq] at h
      cases h
      exact .disabled
    | some q =>
      rw [hq] at h
      obtain ⟨hlen, rfl⟩ := pushTail_eq_some.1 hq
      cases h
      exact .release hh hlen
  · cases h
    exact .disabled

end Sys2Proof.Machine

/-! # What a move of each agent leaves unchanged (R20, R27) -/

namespace Sys2Proof.Machine

variable {s t u : State}

/-! ## CAP -/

/-- `t` with every piece of state that is not CAP's put back to its value in `s` (R20). -/
def State.restoreForeign (s t : State) : State :=
  { t with
      pins := s.pins, feedState := s.feedState, fy := s.fy, fptr := s.fptr
      fch := s.fch, fb := s.fb, fblk := s.fblk, fslice := s.fslice
      freeQ := s.freeQ, validQ := s.validQ, payload := s.payload
      sinkHeld := s.sinkHeld, par := s.par, script := s.script, tick := s.tick
      epoch := s.epoch }

/-- `t` with the configuration registers put back to their values in `s` (R27). -/
def State.restoreConfig (s t : State) : State :=
  { t with
      strapCode := s.strapCode, profileTag := s.profileTag, pin := s.pin, mask := s.mask
      mode := s.mode, cfgUnrecognised := s.cfgUnrecognised }

/-- `BOOT_RESOLVE` writes the configuration and `cap_state` alone. -/
theorem State.booted_restoreForeign (s : State) : s.booted = s.restoreForeign s.booted := by
  unfold State.booted State.latchStrap
  dsimp only
  split <;> rfl

/-- Every other step of CAP keeps the configuration and all that is not CAP's. -/
def CapKeeps (s t : State) : Prop := t = s.restoreForeign (s.restoreConfig t)

theorem CapKeeps.trans (h : CapKeeps s t) (h' : CapKeeps t u) : CapKeeps s u :=
  calc u = t.restoreForeign (t.restoreConfig u) := h'
    _ = (s.restoreForeign (s.restoreConfig t)).restoreForeign
          ((s.restoreForeign (s.restoreConfig t)).restoreConfig u) :=
        congrArg (fun v => v.restoreForeign (v.restoreConfig u)) h
    _ = s.restoreForeign (s.restoreConfig u) := rfl

theorem CapKeeps.restoreForeign (h : CapKeeps s t) : t = s.restoreForeign t :=
  calc t = s.restoreForeign (s.restoreConfig t) := h
    _ = s.restoreForeign (s.restoreForeign (s.restoreConfig t)) := rfl
    _ = s.restoreForeign t := congrArg s.restoreForeign h.symm

theorem State.afterLowDstn_keeps (s : State) : CapKeeps s s.afterLowDstn := by
  unfold State.afterLowDstn
  dsimp only
  split <;> rfl

theorem State.discardLead_keeps (s : State) : CapKeeps s s.discardLead := by
  unfold State.discardLead
  dsimp only
  split <;> rfl

theorem State.nextPair_keeps (s : State) : CapKeeps s s.nextPair := by
  unfold State.nextPair
  dsimp only
  split
  · rfl
  · split <;> rfl

theorem State.nextByte_keeps (s : State) : CapKeeps s s.nextByte := by
  unfold State.nextByte
  split <;> rfl

theorem State.nextZero_keeps (s : State) : CapKeeps s s.nextZero := by
  unfold State.nextZero
  split <;> rfl

theorem State.nextCopy_keeps (s : State) : CapKeeps s s.nextCopy := by
  unfold State.nextCopy
  split
  · rfl
  · split <;> rfl

/-- After boot a step of CAP keeps the configuration and all that is not CAP's. -/
theorem CapStep.keeps (h : CapStep s t) (hb : s.capState ≠ .bootResolve) : CapKeeps s t := by
  cases h with
  | waiting => rfl
  | boot hc => exact absurd hc hb
  | highDstn => rfl
  | highTft => rfl
  | low => exact s.afterLowDstn_keeps
  | armed => rfl
  | fired => rfl
  | lead => exact CapKeeps.trans (t := s.takeSample) rfl s.takeSample.discardLead_keeps
  | first => rfl
  | second => exact CapKeeps.trans (t := s.pairStored) rfl s.pairStored.nextPair_keeps
  | byte =>
    exact CapKeeps.trans (t := s.takeSample.setRaw s.i s.busByte) rfl (State.nextByte_keeps _)
  | done => rfl
  | select => rfl
  | zero => exact CapKeeps.trans (t := s.setSlot s.stg s.zo 0#8) rfl (State.nextZero_keeps _)
  | copy =>
    exact CapKeeps.trans (t := s.setSlot s.stg (planeOffset s.p s.o) (s.rawByte s.o)) rfl
      (State.nextCopy_keeps _)
  | publish => rfl

/-- Every step of CAP keeps all that is not CAP's. -/
theorem CapStep.restoreForeign (h : CapStep s t) : t = s.restoreForeign t := by
  by_cases hb : s.capState = .bootResolve
  · cases h with
    | waiting => rfl
    | boot => exact s.booted_restoreForeign
    | armed hc => rw [hb] at hc; cases hc
    | fired hc => rw [hb] at hc; cases hc
    | _ hc => rw [hb] at hc; cases hc
  · exact (h.keeps hb).restoreForeign

/-- No step of CAP enters `BOOT_RESOLVE` (R27, R243). -/
theorem CapStep.capState_ne_boot (h : CapStep s t) (hb : s.capState ≠ .bootResolve) :
    t.capState ≠ .bootResolve := by
  cases h with
  | waiting | armed | fired | first => exact hb
  | boot | highDstn | highTft | done | select | publish => exact nofun
  | low =>
    unfold State.afterLowDstn
    dsimp only
    split <;> exact nofun
  | lead =>
    unfold State.discardLead
    dsimp only
    split
    · exact nofun
    · exact hb
  | second =>
    unfold State.nextPair
    dsimp only
    split
    · exact hb
    · split
      · exact hb
      · exact nofun
  | byte =>
    unfold State.nextByte
    split
    · exact hb
    · exact nofun
  | zero =>
    unfold State.nextZero
    split
    · exact hb
    · exact nofun
  | copy =>
    unfold State.nextCopy
    split
    · exact hb
    · split
      · exact hb
      · exact nofun

/-! ## FEED -/

theorem State.acquired_frame (s : State) (h : Nat) (rest : List Nat) :
    s.acquired h rest = { s with
      freeQ := rest, fblk := some h, trace := s.trace ++ [.acq h]
      fch := (s.acquired h rest).fch, fb := (s.acquired h rest).fb
      feedState := (s.acquired h rest).feedState } := by
  unfold State.acquired
  dsimp only
  split <;> rfl

theorem State.nextChannel_frame (s : State) :
    s.nextChannel = { s with
      fb := 0, fch := s.nextChannel.fch, feedState := s.nextChannel.feedState } := by
  unfold State.nextChannel
  split <;> rfl

/-- A step of FEED writes its own state, the queues, the payload and the trace. -/
theorem FeedStep.frame (h : FeedStep s t) :
    t = { s with
      feedState := t.feedState, fy := t.fy, fptr := t.fptr
      fch := t.fch, fb := t.fb, fblk := t.fblk, fslice := t.fslice
      freeQ := t.freeQ, validQ := t.validQ, payload := t.payload
      trace := t.trace } := by
  cases h with
  | blocked | readPtr | collect | submit | advance => rfl
  | acquire => rw [State.acquired_frame]
  | encode => rw [State.nextChannel_frame]; rfl

/-! ## SINK -/

/-- A step of SINK writes the two queues and the set of held handles. -/
theorem SinkStep.frame (h : SinkStep s t) :
    t = { s with freeQ := t.freeQ, validQ := t.validQ, sinkHeld := t.sinkHeld } := by
  cases h <;> rfl

/-! ## The partition of the state and the fixed configuration -/

/-- Settles O45, agent by agent. -/
theorem eachAgentWritesItsOwnState : Obligations.EachAgentWritesItsOwnState := by
  unfold Obligations.EachAgentWritesItsOwnState
  intro s t
  refine ⟨fun h => ?cap, fun h => ?feed, fun m hm h => ?sink⟩
  case cap => exact (capStep_of_runCap h).2.restoreForeign
  case feed => exact (feedStep_of_runFeed h).frame
  case sink =>
    rcases hm with rfl | ⟨b, rfl⟩
    · exact (sinkStep_of_take h).frame
    · exact (sinkStep_of_release h).frame

/-- The configuration registers and the parameters are the same in `s` and `t`, and CAP has not
gone back to `BOOT_RESOLVE`. -/
def ConfigKept (s t : State) : Prop :=
  t.strapCode = s.strapCode ∧ t.profileTag = s.profileTag ∧ t.pin = s.pin ∧ t.mask = s.mask ∧
  t.mode = s.mode ∧ t.cfgUnrecognised = s.cfgUnrecognised ∧ t.par = s.par ∧
  (s.capState ≠ .bootResolve → t.capState ≠ .bootResolve)

theorem CapStep.configKept (h : CapStep s t) (hb : s.capState ≠ .bootResolve) :
    ConfigKept s t := by
  have hne := h.capState_ne_boot hb
  have hk : t = s.restoreForeign (s.restoreConfig t) := h.keeps hb
  rw [hk] at hne ⊢
  exact ⟨rfl, rfl, rfl, rfl, rfl, rfl, rfl, fun _ => hne⟩

theorem FeedStep.configKept (h : FeedStep s t) : ConfigKept s t := by
  rw [h.frame]
  exact ⟨rfl, rfl, rfl, rfl, rfl, rfl, rfl, id⟩

theorem SinkStep.configKept (h : SinkStep s t) : ConfigKept s t := by
  rw [h.frame]
  exact ⟨rfl, rfl, rfl, rfl, rfl, rfl, rfl, id⟩

/-- Settles O17, from what each agent leaves unchanged. -/
theorem configurationIsImmutableAfterBoot : Obligations.ConfigurationIsImmutableAfterBoot := by
  unfold Obligations.ConfigurationIsImmutableAfterBoot
  intro s t m hcap hreset h
  cases m with
  | cap => exact (capStep_of_runCap h).2.configKept (hcap rfl)
  | feed => exact (feedStep_of_runFeed h).configKept
  | sinkTake => exact (sinkStep_of_take h).configKept
  | sinkRelease b => exact (sinkStep_of_release h).configKept
  | busDrive sel levels =>
    cases h
    exact ⟨rfl, rfl, rfl, rfl, rfl, rfl, rfl, id⟩
  | reset => exact absurd rfl hreset

end Sys2Proof.Machine

/-! # The structural invariant (R9, R27, R48, R53, R68, R106, R176)

First the state after reset, then one rule per operation on the state, then the moves of each agent
by the cases of `CapStep`, `FeedStep` and `SinkStep`. -/

namespace Sys2Proof.Machine

variable {s t : State}

/-! ## After reset (R57, R242) -/

theorem nBlocks_le_freeCap {par : Params} (hp : par.WellFormed) : par.nBlocks ≤ par.freeCap := by
  obtain ⟨-, -, -, -, hfree, -⟩ := hp
  exact hfree

theorem State.resetWith_inv {par : Params} (hp : par.WellFormed) : (State.resetWith par).Inv :=
  { parWf := hp
    script := nofun
    config := ⟨rfl, rfl, rfl, rfl⟩
    pair := rfl
    pinsWithin := Nat.two_pow_pos _
    maskWithin := fun k hk => by simp [State.resetWith]
    dCnt := Nat.zero_le _
    dCntBelow := nofun
    y := Nat.succ_pos _
    col := Nat.succ_pos _
    i := Nat.succ_pos _
    zo := Nat.succ_pos _
    o := Nat.succ_pos _
    p := Nat.succ_pos _
    fy := Nat.succ_pos _
    fch := Nat.succ_pos _
    fb := Nat.succ_pos _
    rawWf := .nil
    rawWithin := nofun
    slot0Wf := .nil
    slot0Within := nofun
    slot1Wf := .nil
    slot1Within := nofun
    payloadWf := .nil
    payloadWithin := nofun
    staging := nofun
    holds := rfl
    handles := by simp [State.handles, State.resetWith]
    sinkRising := .nil
    freeBound := by simpa [State.resetWith] using nBlocks_le_freeCap hp
    validBound := Nat.zero_le _ }

theorem board_wellFormed : Config.board.WellFormed := by
  unfold Config.board
  split
  · assumption
  · decide

/-- Settles O10: no pass, row or assembly is in progress after reset and the trace is empty. -/
theorem resetMeetsTheInvariants : Obligations.ResetMeetsTheInvariants := by
  unfold Obligations.ResetMeetsTheInvariants
  refine ⟨State.resetWith_inv board_wellFormed, fun par =>
    ⟨State.resetWith_inv, trivial, trivial, ?planes, nofun, ⟨[], rfl⟩, ⟨rfl, rfl⟩, rfl⟩⟩
  case planes =>
    rintro ⟨k, hk⟩
    cases hk

/-- A `RESET` in a good state: the parameters and the pins are those of before (log entry 19). -/
theorem State.Inv.resetEvent (h : s.Inv) : s.resetEvent.Inv :=
  { State.resetWith_inv h.parWf with
    script := h.script
    pinsWithin := h.pinsWithin }

/-! ## Single updates -/

theorem State.Inv.drive (h : s.Inv) (sel levels : PinWord) : (s.drive sel levels).Inv :=
  { h with pinsWithin := drivePins_lt _ _ _ _ }

theorem State.Inv.takeSample (h : s.Inv) : s.takeSample.Inv := { h with }

theorem State.Inv.afterArm (h : s.Inv) : s.afterArm.Inv := { h with }

theorem State.Inv.afterFire (h : s.Inv) : s.afterFire.Inv := { h with }

theorem State.Inv.setRaw (h : s.Inv) {off : Nat} (hoff : off < Config.frameBytes) (v : Byte) :
    (s.setRaw off v).Inv :=
  { h with
    rawWf := Memory.wf_insert off v h.rawWf
    rawWithin := Memory.within_insert hoff v h.rawWithin }

theorem State.Inv.setSlot (h : s.Inv) (k : Fin 2) {off : Nat} (hoff : off < Config.slotBytes)
    (v : Byte) : (s.setSlot k off v).Inv := by
  obtain ⟨-, hwf0, hwf1, -⟩ :=
    State.setSlot_memoriesWf k off v ⟨h.rawWf, h.slot0Wf, h.slot1Wf, h.payloadWf⟩
  have hin0 : Memory.Within Config.slotBytes (s.setSlot k off v).slot0 := by
    rw [State.setSlot_slot0]
    split
    · exact Memory.within_insert hoff v h.slot0Within
    · exact h.slot0Within
  have hin1 : Memory.Within Config.slotBytes (s.setSlot k off v).slot1 := by
    rw [State.setSlot_slot1]
    split
    · exact h.slot1Within
    · exact Memory.within_insert hoff v h.slot1Within
  exact { h with
    slot0Wf := hwf0, slot1Wf := hwf1, slot0Within := hin0, slot1Within := hin1 }

theorem State.ne_boot {c : CapState} (hc : s.capState = c) (hcb : c ≠ .bootResolve) :
    s.capState ≠ .bootResolve := hc ▸ hcb

theorem State.Inv.unconfigured (h : s.Inv) (hb : s.capState = .bootResolve) : s.Unconfigured := by
  simpa [hb] using h.config

theorem State.Inv.configured (h : s.Inv) (hb : s.capState ≠ .bootResolve) : s.Configured := by
  simpa [hb] using h.config

/-- A new control state after boot: the configuration is the same, and the pair of R106, the lead
count and the staging slot are those of the new state. -/
theorem State.Inv.setCapState (h : s.Inv) {c : CapState} (hb : s.capState ≠ .bootResolve)
    (hc : c ≠ .bootResolve) (hp : impossiblePair c s.mode = false)
    (hd : c = .discardLead → s.dCnt < s.par.dstnLeadDiscard)
    (hs : assembling c = true → s.stg = 1 - s.displayPointer) :
    ({ s with capState := c } : State).Inv :=
  { h with
    config := by
      rw [if_neg hc]
      exact h.configured hb
    pair := hp
    dCntBelow := hd
    staging := hs }

/-! ## Boot (R121 to R123) -/

/-- From the reset configuration the strap code gives the profile and the table of R96. -/
theorem State.Unconfigured.latchStrap (h : s.Unconfigured) (code : BitVec 2) :
    s.latchStrap code = { s with
      strapCode := code, profileTag := profileOf code, pin := tableOf s.par code
      cfgUnrecognised := decide (code = 3#2) } := by
  obtain ⟨-, -, hpin, hcfg⟩ := h
  have codes : ∀ c : BitVec 2, c = 0 ∨ c = 1 ∨ c = 2 ∨ c = 3 := by decide
  rcases codes code with rfl | rfl | rfl | rfl <;>
    simp [State.latchStrap, cfgUnrecognisedAfter, profileOf, tableOf, hpin, hcfg]

theorem State.booted_configured (h : s.Unconfigured) : s.booted.Configured := by
  unfold State.booted
  rw [h.latchStrap]
  exact ⟨rfl, rfl, rfl, rfl, rfl⟩

theorem tableOf_within {par : Params} (hp : par.WellFormed) (code : BitVec 2) :
    (tableOf par code).Within par.nPins := by
  obtain ⟨-, ⟨h0, h1, h2⟩, ⟨hstrap, -⟩, -⟩ := hp
  unfold tableOf
  split
  · exact h0
  · exact h1
  · exact h2
  · intro q hq
    have hzero : q = 0 := by simpa [PinTable.ids, PinTable.zero] using hq
    exact hzero ▸ Nat.zero_lt_of_lt hstrap

theorem State.Inv.booted (h : s.Inv) (hc : s.capState = .bootResolve) : s.booted.Inv := by
  have hu := h.unconfigured hc
  have hconf := State.booted_configured hu
  unfold State.booted at hconf ⊢
  rw [hu.latchStrap] at hconf ⊢
  exact { h with
    config := hconf
    pair := rfl
    maskWithin := fun k hk => masksOf_lt (tableOf_within h.parWf s.strapOnPins) hk
    dCntBelow := nofun
    staging := nofun }

/-! ## The steps of a pass -/

/-- A control state R106 refuses with mode TFT is met in mode DSTN only. -/
theorem State.Inv.mode_dstn (h : s.Inv) (hc : impossiblePair s.capState .tft = true) :
    s.mode = .dstn := by
  have hp := h.pair
  cases hm : s.mode with
  | dstn => rfl
  | tft =>
    rw [hm, hc] at hp
    cases hp

theorem State.Inv.startRows (h : s.Inv) (hb : s.capState ≠ .bootResolve)
    (hm : s.mode = .dstn) : s.startRows.Inv :=
  { h.setCapState hb (c := .rowCapture) nofun (hm ▸ rfl) nofun nofun with
    y := Nat.succ_pos _
    col := Nat.succ_pos _ }

theorem State.Inv.afterLowDstn (h : s.Inv) (hc : s.capState = .waitFrameLow) :
    s.afterLowDstn.Inv := by
  have hb := State.ne_boot hc nofun
  have hm := h.mode_dstn (by rw [hc]; rfl)
  unfold State.afterLowDstn
  dsimp only
  split
  · rename_i hlead
    have h0 : ({ s with gate := .arm, stream := [], dCnt := 0 } : State).Inv :=
      { h with
        dCnt := Nat.zero_le _
        dCntBelow := fun _ => hlead }
    exact h0.setCapState hb (c := .discardLead) nofun (hm ▸ rfl) (fun _ => hlead) nofun
  · exact State.Inv.startRows (s := { s with gate := .arm, stream := [] }) { h with } hb hm

theorem State.Inv.discardLead (h : s.Inv) (hc : s.capState = .discardLead) : s.discardLead.Inv := by
  have hb := State.ne_boot hc nofun
  have hm := h.mode_dstn (by rw [hc]; rfl)
  have hlt := h.dCntBelow hc
  unfold State.discardLead
  dsimp only
  split
  · exact { h.startRows hb hm with
      dCnt := hlt
      dCntBelow := nofun }
  · rename_i hne
    exact { h with
      dCnt := hlt
      dCntBelow := fun _ => Nat.lt_of_le_of_ne hlt hne }

theorem State.Inv.takeS0 (h : s.Inv) (b : Byte) : (s.takeS0 b).Inv := { h with }

theorem State.Inv.pairStored (h : s.Inv) (htop : topOffset s.y s.col < Config.frameBytes)
    (hbot : bottomOffset s.y s.col < Config.frameBytes) : s.pairStored.Inv :=
  have hread : ({ s.takeSample with s1 := s.busByte } : State).Inv := { h with }
  (hread.setRaw htop _).setRaw hbot _

theorem State.Inv.nextPair (h : s.Inv) (hc : s.capState = .rowCapture) : s.nextPair.Inv := by
  have hb := State.ne_boot hc nofun
  unfold State.nextPair
  dsimp only
  split
  · rename_i hcol
    exact { h with col := Nat.add_lt_of_lt_sub hcol }
  · split
    · rename_i hy
      exact { h with col := Nat.succ_pos _, y := Nat.add_lt_of_lt_sub hy }
    · exact { h.setCapState hb (c := .done) nofun rfl nofun nofun with col := Nat.succ_pos _ }

theorem State.Inv.nextByte (h : s.Inv) (hc : s.capState = .seqCapture) : s.nextByte.Inv := by
  have hb := State.ne_boot hc nofun
  unfold State.nextByte
  split
  · rename_i hi
    exact { h with i := Nat.add_lt_of_lt_sub hi }
  · exact h.setCapState hb nofun rfl nofun nofun

/-! ## The steps of the assembly -/

theorem State.Inv.nextZero (h : s.Inv) (hc : s.capState = .asmZero) : s.nextZero.Inv := by
  have hb := State.ne_boot hc nofun
  have hstg := h.staging (by rw [hc]; rfl)
  unfold State.nextZero
  split
  · rename_i hzo
    exact { h with zo := Nat.add_lt_of_lt_sub hzo }
  · exact { h.setCapState hb (c := .asmCopy) nofun rfl nofun (fun _ => hstg) with
      o := Nat.succ_pos _
      p := Nat.succ_pos _ }

theorem State.Inv.nextCopy (h : s.Inv) (hc : s.capState = .asmCopy) : s.nextCopy.Inv := by
  have hb := State.ne_boot hc nofun
  have hstg := h.staging (by rw [hc]; rfl)
  unfold State.nextCopy
  split
  · rename_i hp
    exact { h with p := Nat.add_lt_of_lt_sub hp }
  · split
    · rename_i ho
      exact { h with p := Nat.succ_pos _, o := Nat.add_lt_of_lt_sub ho }
    · exact { h.setCapState hb (c := .asmPublish) nofun rfl nofun (fun _ => hstg) with
        p := Nat.succ_pos _ }

theorem CapStep.inv (hst : CapStep s t) (h : s.Inv) : t.Inv := by
  cases hst with
  | waiting => exact h
  | boot hc => exact h.booted hc
  | highDstn hc hm => exact h.setCapState (State.ne_boot hc nofun) nofun (hm ▸ rfl) nofun nofun
  | highTft hc hm =>
    have hseq := h.setCapState (c := .seqCapture) (State.ne_boot hc nofun) nofun (hm ▸ rfl) nofun
      nofun
    exact { hseq with i := Nat.succ_pos _ }
  | low hc => exact h.afterLowDstn hc
  | armed => exact h.afterArm
  | fired => exact h.afterFire
  | lead hc => exact h.takeSample.discardLead hc
  | first => exact h.takeSample.takeS0 _
  | second hc _ _ htop hbot => exact (h.pairStored htop hbot).nextPair hc
  | byte hc _ hi => exact (h.takeSample.setRaw hi _).nextByte hc
  | done hc => exact h.setCapState (State.ne_boot hc nofun) nofun rfl nofun nofun
  | select hc =>
    have hsel : ({ s with stg := 1 - s.displayPointer, zo := 0 } : State).Inv :=
      { h with zo := Nat.succ_pos _, staging := fun _ => rfl }
    exact hsel.setCapState (State.ne_boot hc nofun) nofun rfl nofun fun _ => rfl
  | zero hc hzo => exact (h.setSlot _ hzo _).nextZero hc
  | copy hc _ hpo => exact (h.setSlot _ hpo _).nextCopy hc
  | publish hc =>
    have hwait := h.setCapState (c := .waitFrameHigh) (State.ne_boot hc nofun) nofun rfl nofun nofun
    exact { hwait with staging := nofun }

/-! ## The steps of FEED and SINK: the ownership of handles (R53) -/

/-- A handle anywhere is an index of a block (R52). -/
theorem State.Inv.handle_lt (h : s.Inv) {b : Nat} (hb : b ∈ s.handles) : b < s.par.nBlocks :=
  List.mem_range.1 (h.handles.mem_iff.1 hb)

/-- Between the submit and the acquire FEED holds no handle (R48). -/
theorem State.Inv.fblk_none (h : s.Inv) (hf : holdsBlock s.feedState = false) : s.fblk = none := by
  simpa [hf] using h.holds

/-- No handle is both submitted and held by the SINK. -/
theorem State.Inv.not_mem_sinkHeld (h : s.Inv) {b : Nat} (hb : b ∈ s.validQ) : b ∉ s.sinkHeld := by
  have hnodup : s.handles.Nodup := h.handles.nodup_iff.2 List.nodup_range
  exact fun hheld => List.disjoint_of_nodup_append hnodup (by simp [hb]) hheld

theorem State.Inv.acquired (h : s.Inv) {b : Nat} {rest : List Nat} (hf : s.feedState = .acquire)
    (hq : s.freeQ = b :: rest) : (s.acquired b rest).Inv := by
  have hnone := h.fblk_none (by rw [hf]; rfl)
  have hperm : (rest ++ s.validQ ++ [b] ++ s.sinkHeld).Perm s.handles := by
    rw [State.handles, hq, hnone, List.perm_iff_count]
    intro a
    simp only [List.count_append, List.count_cons, Option.toList_none, List.count_nil]
    omega
  have hfree : rest.length ≤ s.par.freeCap := by
    have := h.freeBound
    rw [hq, List.length_cons] at this
    omega
  unfold State.acquired
  dsimp only
  split
  · exact { h with handles := hperm.trans h.handles, freeBound := hfree, holds := rfl }
  · exact { h with
      handles := hperm.trans h.handles, freeBound := hfree, holds := rfl
      fch := Nat.succ_pos _, fb := Nat.succ_pos _ }

theorem State.Inv.nextChannel (h : s.Inv) (hf : s.feedState = .readEncode) : s.nextChannel.Inv := by
  unfold State.nextChannel
  split
  · rename_i hch
    exact { h with fb := Nat.succ_pos _, fch := Nat.add_lt_of_lt_sub hch }
  · exact { h with fb := Nat.succ_pos _, holds := h.holds.trans (by rw [hf]; rfl) }

theorem State.Inv.encodeRow (h : s.Inv) {b c : Nat} (hb : s.fblk = some b) (hc : c < 3) :
    (s.encodeRow b c).Inv := by
  have hlt : b < s.par.nBlocks := h.handle_lt (by simp [State.handles, hb])
  refine { h with
    payloadWf := Sparse.insert_canonical _ _ h.payloadWf
    payloadWithin := fun e he => ?_ }
  rcases Sparse.mem_insert he with rfl | he
  · change 3 * b + c < 3 * s.par.nBlocks
    omega
  · exact h.payloadWithin e he

theorem FeedStep.inv (hst : FeedStep s t) (h : s.Inv) : t.Inv := by
  cases hst with
  | blocked => exact h
  | acquire hf hq => exact h.acquired hf hq
  | readPtr hf =>
    exact { h with
      fch := Nat.succ_pos _, fb := Nat.succ_pos _, holds := h.holds.trans (by rw [hf]; rfl) }
  | collect _ hc hb hlast => exact { h with fb := Nat.add_lt_of_lt_sub hlast }
  | encode hf hc hb _ hh =>
    have hcol : (s.collected hc hb).Inv := { h with }
    exact (hcol.encodeRow hh hc).nextChannel hf
  | @submit b hf hh hq =>
    have hperm : (s.freeQ ++ (s.validQ ++ [b]) ++ [] ++ s.sinkHeld).Perm s.handles := by
      simp [State.handles, hh]
    exact { h with
      handles := hperm.trans h.handles, holds := rfl
      validBound := by simpa using hq }
  | advance hf =>
    have hfy : (if s.fy < Config.height - 1 then s.fy + 1 else 0) < Config.height := by
      split
      · omega
      · exact Nat.succ_pos _
    exact { h with fy := hfy, holds := h.holds.trans (by rw [hf]; rfl) }

theorem SinkStep.inv (hst : SinkStep s t) (h : s.Inv) : t.Inv := by
  cases hst with
  | disabled => exact h
  | @take b rest hq =>
    have hnew : b ∉ s.sinkHeld := h.not_mem_sinkHeld (by simp [hq])
    have hperm : (s.freeQ ++ rest ++ s.fblk.toList ++ HandleSet.insert b s.sinkHeld).Perm
        s.handles := by
      rw [State.handles, hq, List.perm_iff_count]
      intro a
      simp only [List.count_append, List.count_cons, (HandleSet.insert_perm hnew).count_eq]
      omega
    have hvalid : rest.length ≤ s.par.validCap := by
      have := h.validBound
      rw [hq, List.length_cons] at this
      omega
    exact { h with
      handles := hperm.trans h.handles, validBound := hvalid
      sinkRising := HandleSet.insert_rising b h.sinkRising }
  | @release b hh hq =>
    have hperm : (s.freeQ ++ [b] ++ s.validQ ++ s.fblk.toList ++ s.sinkHeld.erase b).Perm
        s.handles := by
      rw [State.handles, List.perm_iff_count]
      intro a
      simp only [List.count_append, (List.perm_cons_erase hh).count_eq, List.count_cons,
        List.count_nil]
      omega
    exact { h with
      handles := hperm.trans h.handles
      freeBound := by simpa using hq
      sinkRising := h.sinkRising.sublist List.erase_sublist }

/-! ## Every move and every step -/

theorem runMove_keeps_inv (h : s.Inv) {m : Move} (hm : runMove m s = .next t) : t.Inv := by
  cases m with
  | cap => exact (capStep_of_runCap hm).2.inv h
  | feed => exact (feedStep_of_runFeed hm).inv h
  | sinkTake => exact (sinkStep_of_take hm).inv h
  | sinkRelease b => exact (sinkStep_of_release hm).inv h
  | busDrive sel levels =>
    cases hm
    exact h.drive sel levels
  | reset =>
    cases hm
    exact h.resetEvent

/-- Settles O49: in a good state every turn of the script is a move, and every move keeps the
invariant. -/
theorem stepKeepsTheInvariant : Obligations.StepKeepsTheInvariant := by
  unfold Obligations.StepKeepsTheInvariant
  intro s t h hst
  rcases step_cases hst with ⟨u, rest, hs, hu⟩ | ⟨-, hm⟩
  · have hturns : ∀ v ∈ u :: rest, ∃ m, v = Turn.move m := hs ▸ h.script
    obtain ⟨m, rfl⟩ := hturns u List.mem_cons_self
    rw [runTurn_move] at hu
    have hrest : ({ s with script := rest } : State).Inv :=
      { h with script := fun v hv => hturns v (List.mem_cons_of_mem _ hv) }
    exact runMove_keeps_inv hrest hu
  · have htick : ({ s with tick := s.tick + 1 } : State).Inv := { h with }
    exact runMove_keeps_inv htick hm

end Sys2Proof.Machine

/-! # A good state always steps (R15, R68, R106, R210)

The steps that can stop are those that access a memory or need a handle. For each, first its answer
where its offsets are inside their spaces and its handle is held, then that in a good state they
are; no other step can stop. -/

namespace Sys2Proof.Machine

variable {s : State}

/-! ## The offsets and the handle of a good state (R48, R68) -/

/-- The byte `ASM_COPY` writes lies inside the staging slot (R63, R173). -/
theorem State.Inv.copyOffset_lt (h : s.Inv) : planeOffset s.p s.o < Config.slotBytes := by
  have hp := h.p
  have ho := h.o
  simp only [planeOffset, Config.nPlanes, Config.frameBytes, Config.slotBytes] at *
  omega

/-- The byte `F_READ_ENCODE` reads lies inside the slot it reads (R64, R190). -/
theorem State.Inv.readOffset_lt (h : s.Inv) :
    sliceOffset s.fch s.fy s.fb < Config.slotBytes := by
  have hfch := h.fch
  have hfy := h.fy
  have hfb := h.fb
  simp only [sliceOffset, Config.nPlanes, Config.height, Config.bytesPerRow, Config.frameBytes,
    Config.slotBytes] at *
  omega

/-- Between its acquire and its submit FEED holds a handle (R48). -/
theorem State.Inv.exists_fblk (h : s.Inv) (hf : holdsBlock s.feedState = true) :
    ∃ b, s.fblk = some b :=
  Option.isSome_iff_exists.1 (h.holds.trans hf)

/-! ## The operations that can stop -/

theorem execAsmZero_of_lt (hzo : s.zo < Config.slotBytes) :
    execAsmZero s = .next (s.setSlot s.stg s.zo 0#8).nextZero := by
  rw [execAsmZero, State.writeSlot_of_lt hzo]

theorem execAsmCopy_of_lt (ho : s.o < Config.frameBytes)
    (hpo : planeOffset s.p s.o < Config.slotBytes) :
    execAsmCopy s =
      .next (s.setSlot s.stg (planeOffset s.p s.o) (s.rawByte s.o)).nextCopy := by
  simp only [execAsmCopy, State.readRaw_of_lt ho, State.writeSlot_of_lt hpo]

/-- `F_READ_ENCODE` on a byte that is not the last of its slice (R190). -/
theorem execFReadEncode_of_lt (hoff : sliceOffset s.fch s.fy s.fb < Config.slotBytes)
    (hc : s.fch < 3) (hb : s.fb < Config.bytesPerRow) (hlast : s.fb < Config.bytesPerRow - 1) :
    execFReadEncode s = .next { s.collected hc hb with fb := s.fb + 1 } := by
  simp only [execFReadEncode, State.readSlot_of_lt hoff, State.writeSlice_of_lt hc hb, if_pos hlast,
    State.collected]

/-- `F_READ_ENCODE` on the last byte of a slice, with the `encode_row` call (R190). -/
theorem execFReadEncode_of_last (hoff : sliceOffset s.fch s.fy s.fb < Config.slotBytes)
    (hc : s.fch < 3) (hb : s.fb < Config.bytesPerRow) (hlast : ¬ s.fb < Config.bytesPerRow - 1)
    {b : Nat} (hh : s.fblk = some b) :
    execFReadEncode s = .next ((s.collected hc hb).encodeRow b s.fch).nextChannel := by
  simp only [execFReadEncode, State.readSlot_of_lt hoff, State.writeSlice_of_lt hc hb, if_neg hlast,
    hh, State.collected]

/-- The polls of a clock-gated sample always answer; its read answers where the action does. -/
theorem State.gated_answers {act : State → Byte → Result}
    (h : ∃ t, act s.takeSample s.busByte = .next t) : ∃ t, s.gated act = .next t := by
  cases hg : s.gate with
  | arm => exact ⟨_, by rw [State.gated, hg]; rfl⟩
  | fire => exact ⟨_, by rw [State.gated, hg]; rfl⟩
  | read => exact State.gated_read hg ▸ h

/-! ## The agents -/

/-- CAP always answers: it meets no pair of R106 and accesses no byte outside a space (R68). -/
theorem State.Inv.runCap_answers (h : s.Inv) : ∃ t, runCap s = .next t := by
  rw [runCap_eq h.pair]
  cases s.capState with
  | bootResolve | waitFrameLow | asmSelect | asmPublish => exact ⟨_, rfl⟩
  | waitFrameHigh | done => cases s.mode <;> exact ⟨_, rfl⟩
  | discardLead =>
    rw [capOperation, exec_dDiscardLead]
    exact State.gated_answers ⟨_, rfl⟩
  | rowCapture =>
    cases s.phase with
    | false =>
      rw [capOperation, if_neg Bool.false_ne_true, exec_dRowCaptureS0]
      exact State.gated_answers ⟨_, rfl⟩
    | true =>
      have hcol : s.takeSample.col < Config.bytesPerRow := h.col
      rw [capOperation, if_pos rfl, exec_dRowCaptureS1]
      exact State.gated_answers ⟨_, congrArg Result.ofExcept (State.takeS1_of_lt s.busByte hcol)⟩
  | seqCapture =>
    have hi : s.takeSample.i < Config.frameBytes := h.i
    rw [capOperation, exec_tSeqCapture]
    exact State.gated_answers ⟨_, congrArg Result.ofExcept (State.takeTft_of_lt s.busByte hi)⟩
  | asmZero => exact ⟨_, execAsmZero_of_lt h.zo⟩
  | asmCopy => exact ⟨_, execAsmCopy_of_lt h.o h.copyOffset_lt⟩

theorem State.Inv.execFReadEncode_answers (h : s.Inv) (hf : s.feedState = .readEncode) :
    ∃ t, execFReadEncode s = .next t := by
  obtain ⟨b, hh⟩ := h.exists_fblk (by rw [hf]; rfl)
  by_cases hlast : s.fb < Config.bytesPerRow - 1
  · exact ⟨_, execFReadEncode_of_lt h.readOffset_lt h.fch h.fb hlast⟩
  · exact ⟨_, execFReadEncode_of_last h.readOffset_lt h.fch h.fb hlast hh⟩

theorem State.Inv.execFSubmit_answers (h : s.Inv) (hf : s.feedState = .submit) :
    ∃ t, execFSubmit s = .next t := by
  obtain ⟨b, hh⟩ := h.exists_fblk (by rw [hf]; rfl)
  exact ⟨_, by rw [execFSubmit, hh]⟩

/-- FEED always answers: it reads inside a slot and holds a handle where it needs one (R48, R68). -/
theorem State.Inv.runFeed_answers (h : s.Inv) : ∃ t, runFeed s = .next t := by
  rw [runFeed_eq]
  cases hf : s.feedState with
  | acquire | readPtr | advance => exact ⟨_, rfl⟩
  | readEncode => exact h.execFReadEncode_answers hf
  | submit => exact h.execFSubmit_answers hf

theorem State.Inv.runMove_answers (h : s.Inv) (m : Move) : ∃ t, runMove m s = .next t := by
  cases m with
  | cap => exact h.runCap_answers
  | feed => exact h.runFeed_answers
  | sinkTake => exact ⟨_, runSink_take_eq s⟩
  | sinkRelease b => exact ⟨_, runSink_release_eq b s⟩
  | busDrive | reset => exact ⟨_, rfl⟩

/-! ## The step -/

/-- The next step of a good state is a move, and never a placed word, in a good state. -/
theorem State.Inv.step_eq_runMove (h : s.Inv) :
    ∃ m rest k, ({ s with script := rest, tick := k } : State).Inv ∧
      step s = runMove m { s with script := rest, tick := k } := by
  cases hs : s.script with
  | nil =>
    refine ⟨Config.schedule s.tick, s.script, s.tick + 1, { h with }, ?_⟩
    exact step_of_script_nil hs
  | cons u rest =>
    have hturns : ∀ v ∈ u :: rest, ∃ m, v = Turn.move m := hs ▸ h.script
    obtain ⟨m, rfl⟩ := hturns u List.mem_cons_self
    refine ⟨m, rest, s.tick,
      { h with script := fun v hv => hturns v (List.mem_cons_of_mem _ hv) }, ?_⟩
    rw [step_of_script_cons hs, runTurn_move]

/-- Settles O50: the next step is a move in a good state, and there every move answers. -/
theorem goodStatesAlwaysStep : Obligations.GoodStatesAlwaysStep := by
  unfold Obligations.GoodStatesAlwaysStep
  intro s h
  obtain ⟨m, rest, k, hinv, hstep⟩ := h.step_eq_runMove
  obtain ⟨t, ht⟩ := hinv.runMove_answers m
  exact ⟨t, hstep.trans ht⟩

end Sys2Proof.Machine

/-! # The selector words, field by field (R104, R105, R110) -/

namespace Sys2Proof

/-! ## Codes: each is read back as the state it stands for, and the rest are reserved -/

theorem CapState.ofCode_eq_some_iff {k : BitVec 4} {c : CapState} :
    CapState.ofCode k = some c ↔ k = c.code := by
  have back : ∀ k : BitVec 4, ∀ c ∈ CapState.ofCode k, k = c.code := by decide
  exact ⟨back k c, fun h => h ▸ Machine.CapState.ofCode_code c⟩

theorem CapState.ofCode_eq_none_iff : ∀ {k : BitVec 4}, CapState.ofCode k = none ↔ 11 ≤ k.toNat := by
  decide

theorem Gate.ofCode_eq_some_iff {k : BitVec 2} {g : Gate} :
    Gate.ofCode k = some g ↔ k = g.code := by
  have back : ∀ k : BitVec 2, ∀ g ∈ Gate.ofCode k, k = g.code := by decide
  exact ⟨back k g, fun h => by rw [h]; cases g <;> rfl⟩

theorem Gate.ofCode_eq_none_iff : ∀ {k : BitVec 2}, Gate.ofCode k = none ↔ k = 3#2 := by decide

theorem FeedState.ofCode_eq_some_iff {k : BitVec 3} {f : FeedState} :
    FeedState.ofCode k = some f ↔ k = f.code := by
  have back : ∀ k : BitVec 3, ∀ f ∈ FeedState.ofCode k, k = f.code := by decide
  exact ⟨back k f, fun h => h ▸ Machine.feedState_ofCode_code f⟩

theorem FeedState.ofCode_eq_none_iff :
    ∀ {k : BitVec 3}, FeedState.ofCode k = none ↔ 5 ≤ k.toNat := by
  decide

theorem Mode.ofBit_eq_iff {b : Bool} {m : Mode} : Mode.ofBit b = m ↔ BitVec.ofBool b = m.code := by
  cases b <;> cases m <;> decide

theorem Gate.code_inj {g h : Gate} : g.code = h.code ↔ g = h := by
  cases g <;> cases h <;> decide

/-! ## The four fields of a csel word -/

/-- The layout of a csel word, on the codes themselves (R110). -/
def cselFields (k : BitVec 4) (m : BitVec 1) (g : BitVec 2) (ph : BitVec 1) : BitVec 8 :=
  k ++ m ++ g ++ ph

theorem cselWord_eq_fields (c : CapState) (m : Mode) (g : Gate) (ph : Bool) :
    cselWord c m g ph = cselFields c.code m.code g.code (BitVec.ofBool ph) := rfl

/-- Every word is made of the fields the decoder takes from it. -/
theorem eq_cselFields (w : BitVec 8) :
    w = cselFields (w.extractLsb' 4 4) (BitVec.ofBool (w.getLsbD 3)) (w.extractLsb' 1 2)
      (BitVec.ofBool (w.getLsbD 0)) := by
  apply BitVec.eq_of_getLsbD_eq
  intro j hj
  rw [cselFields, BitVec.getLsbD_append, BitVec.getLsbD_append, BitVec.getLsbD_append]
  interval_cases j <;> simp

theorem bitVec_append_inj {n k : Nat} {a b : BitVec n} {x y : BitVec k} :
    a ++ x = b ++ y ↔ a = b ∧ x = y := by
  refine ⟨fun h => ⟨?_, ?_⟩, fun ⟨ha, hx⟩ => by rw [ha, hx]⟩
  · have := congrArg (BitVec.extractLsb' k n) h
    rwa [BitVec.extractLsb'_append_eq_left, BitVec.extractLsb'_append_eq_left] at this
  · have := congrArg (BitVec.extractLsb' 0 k) h
    rwa [BitVec.extractLsb'_append_eq_right, BitVec.extractLsb'_append_eq_right] at this

theorem cselFields_inj {k k' : BitVec 4} {m m' : BitVec 1} {g g' : BitVec 2} {ph ph' : BitVec 1} :
    cselFields k m g ph = cselFields k' m' g' ph' ↔ k = k' ∧ m = m' ∧ g = g' ∧ ph = ph' := by
  refine bitVec_append_inj.trans ?_
  rw [bitVec_append_inj, bitVec_append_inj, and_assoc, and_assoc]

/-- A mask acts on each field by itself. -/
theorem cselFields_and (k k' : BitVec 4) (m m' : BitVec 1) (g g' : BitVec 2) (ph ph' : BitVec 1) :
    cselFields k m g ph &&& cselFields k' m' g' ph' =
      cselFields (k &&& k') (m &&& m') (g &&& g') (ph &&& ph') := by
  refine BitVec.and_append.trans ?_
  rw [BitVec.and_append, BitVec.and_append]
  rfl

/-! ## The masks of the opcode table (R110)

A `match` value of the table is written as the csel word of a control state, the fields outside the
mask at code 0. -/

variable {c k : CapState} {m : Mode} {g : Gate} {b : Bool} {w : BitVec 8} {i : Instr}

/-- A masked word, field by field. -/
theorem and_cselFields (w : BitVec 8) (k : BitVec 4) (m : BitVec 1) (g : BitVec 2) (ph : BitVec 1) :
    w &&& cselFields k m g ph =
      cselFields (w.extractLsb' 4 4 &&& k) (BitVec.ofBool (w.getLsbD 3) &&& m)
        (w.extractLsb' 1 2 &&& g) (BitVec.ofBool (w.getLsbD 0) &&& ph) :=
  calc w &&& cselFields k m g ph
    _ = cselFields _ _ _ _ &&& cselFields k m g ph := congrArg (· &&& _) (eq_cselFields w)
    _ = _ := cselFields_and ..

/-- Mask `F0` keeps the control state. -/
theorem and_stateMask_iff :
    w &&& 0xF0#8 = cselWord k .dstn .arm false ↔ w.extractLsb' 4 4 = k.code := by
  have mask : 0xF0#8 = cselFields (BitVec.allOnes 4) 0#1 0#2 0#1 := rfl
  rw [mask, and_cselFields, cselWord_eq_fields, cselFields_inj, BitVec.and_allOnes]
  simp [Mode.code, Gate.code]

/-- Mask `F8` keeps the control state and the mode. -/
theorem and_stateModeMask_iff :
    w &&& 0xF8#8 = cselWord k m .arm false ↔
      w.extractLsb' 4 4 = k.code ∧ Mode.ofBit (w.getLsbD 3) = m := by
  have mask : 0xF8#8 = cselFields (BitVec.allOnes 4) (BitVec.allOnes 1) 0#2 0#1 := rfl
  rw [mask, and_cselFields, cselWord_eq_fields, cselFields_inj, BitVec.and_allOnes,
    BitVec.and_allOnes, Mode.ofBit_eq_iff]
  simp [Gate.code]

/-- Mask `F1` keeps the control state and the phase. -/
theorem and_statePhaseMask_iff :
    w &&& 0xF1#8 = cselWord k .dstn .arm b ↔ w.extractLsb' 4 4 = k.code ∧ w.getLsbD 0 = b := by
  have mask : 0xF1#8 = cselFields (BitVec.allOnes 4) 0#1 0#2 (BitVec.allOnes 1) := rfl
  rw [mask, and_cselFields, cselWord_eq_fields, cselFields_inj, BitVec.and_allOnes,
    BitVec.and_allOnes, BitVec.ofBool_eq_iff_eq]
  simp [Mode.code, Gate.code]

/-- Mask `06` keeps the gate. -/
theorem and_gateMask_iff :
    w &&& 0x06#8 = cselWord .bootResolve .dstn g false ↔ w.extractLsb' 1 2 = g.code := by
  have mask : 0x06#8 = cselFields 0#4 0#1 (BitVec.allOnes 2) 0#1 := rfl
  rw [mask, and_cselFields, cselWord_eq_fields, cselFields_inj, BitVec.and_allOnes]
  simp [Mode.code, CapState.code]

/-- A gate code that is not the reserved one is that of a phase. -/
theorem exists_gate_of_not_reserved (hg : w &&& 0x06#8 ≠ 0x06#8) :
    ∃ g : Gate, w.extractLsb' 1 2 = g.code := by
  cases hgate : Gate.ofCode (w.extractLsb' 1 2) with
  | some g => exact ⟨g, Gate.ofCode_eq_some_iff.1 hgate⟩
  | none =>
    have mask : 0x06#8 = cselFields 0#4 0#1 (BitVec.allOnes 2) 0#1 := rfl
    refine absurd ?_ hg
    rw [mask, and_cselFields, cselFields_inj, Gate.ofCode_eq_none_iff.1 hgate]
    simp

/-! ## The decoder (R102, R106, R110) -/

/-- The row of a csel word is that of the control state it packs. -/
theorem decode_cselWord (c : CapState) (m : Mode) (g : Gate) (ph : Bool) :
    decode (.csel (cselWord c m g ph)) = .ok (capOperation c m ph) := by
  rw [decode, Machine.unpackCsel_cselWord]

theorem decode_csel_eq_ok_iff (hg : w.extractLsb' 1 2 = g.code) :
    decode (.csel w) = .ok i ↔ ∃ c : CapState, w.extractLsb' 4 4 = c.code ∧
      capOperation c (Mode.ofBit (w.getLsbD 3)) (w.getLsbD 0) = i := by
  rw [decode, unpackCsel, Gate.ofCode_eq_some_iff.2 hg]
  simp only [← CapState.ofCode_eq_some_iff]
  cases CapState.ofCode (w.extractLsb' 4 4) <;> simp

theorem decode_inner_eq_ok_iff {row : InnerRow} (hg : w.extractLsb' 1 2 = g.code) :
    decode (.inner row w) = .ok i ↔
      ∃ c : CapState, w.extractLsb' 4 4 = c.code ∧ innerOperation row c g = .ok i := by
  rw [decode, unpackCsel, Gate.ofCode_eq_some_iff.2 hg]
  simp only [← CapState.ofCode_eq_some_iff]
  cases CapState.ofCode (w.extractLsb' 4 4) <;> simp

/-! ## CAP rows -/

/-- The control state in which CAP performs a row (R102). -/
def Instr.capState : Instr → Option CapState
  | .bootResolve => some .bootResolve
  | .dWaitFrameHigh | .tWaitFrameHigh => some .waitFrameHigh
  | .dWaitFrameLow => some .waitFrameLow
  | .dDiscardLead => some .discardLead
  | .dRowCaptureS0 | .dRowCaptureS1 => some .rowCapture
  | .tSeqCapture => some .seqCapture
  | .dDone | .tDone => some .done
  | .asmSelect => some .asmSelect
  | .asmZero => some .asmZero
  | .asmCopy => some .asmCopy
  | .asmPublish => some .asmPublish
  | _ => none

theorem capState_capOperation (c : CapState) (m : Mode) (ph : Bool) :
    (capOperation c m ph).capState = some c := by
  cases c with
  | waitFrameHigh | done => cases m <;> rfl
  | rowCapture => cases ph <;> rfl
  | _ => rfl

/-- The states whose row depends on the mode (R102). -/
def CapState.byMode (c : CapState) : Prop := c = .waitFrameHigh ∨ c = .done

/-- Which operands of the control state select a CAP row: the mode counts in two states, the phase
in one. -/
theorem capOperation_eq_iff {m n : Mode} {ph : Bool} :
    capOperation c m ph = capOperation k n b ↔
      c = k ∧ (k.byMode → m = n) ∧ (k = .rowCapture → ph = b) := by
  constructor
  · intro h
    have hck : some c = some k := by rw [← capState_capOperation c m ph, h, capState_capOperation]
    cases hck
    refine ⟨rfl, ?_, ?_⟩
    · rintro (rfl | rfl) <;> revert h <;> cases m <;> cases n <;> simp [capOperation]
    · rintro rfl
      revert h
      cases ph <;> cases b <;> simp [capOperation]
  · rintro ⟨rfl, hm, hph⟩
    cases c with
    | waitFrameHigh => rw [hm (.inl rfl)]; rfl
    | done => rw [hm (.inr rfl)]; rfl
    | rowCapture => rw [hph rfl]; rfl
    | _ => rfl

theorem decode_csel_eq_capOperation_iff (hg : w &&& 0x06#8 ≠ 0x06#8) :
    decode (.csel w) = .ok (capOperation k m b) ↔ w.extractLsb' 4 4 = k.code ∧
      (k.byMode → Mode.ofBit (w.getLsbD 3) = m) ∧ (k = .rowCapture → w.getLsbD 0 = b) := by
  obtain ⟨g, hg⟩ := exists_gate_of_not_reserved hg
  simp only [decode_csel_eq_ok_iff hg, capOperation_eq_iff]
  constructor
  · rintro ⟨c, hc, rfl, h⟩
    exact ⟨hc, h⟩
  · rintro ⟨hk, h⟩
    exact ⟨k, hk, rfl, h⟩

/-- A row of a control state alone: mask `F0`. -/
theorem decode_csel_iff_state (hg : w &&& 0x06#8 ≠ 0x06#8) (k : CapState) (hm : ¬ k.byMode)
    (hph : k ≠ .rowCapture) :
    decode (.csel w) = .ok (capOperation k .dstn false) ↔
      w &&& 0xF0#8 = cselWord k .dstn .arm false := by
  rw [decode_csel_eq_capOperation_iff hg, and_stateMask_iff]
  simp [hm, hph]

/-- A row of a control state and a mode: mask `F8`. -/
theorem decode_csel_iff_stateMode (hg : w &&& 0x06#8 ≠ 0x06#8) (k : CapState) (m : Mode)
    (hm : k.byMode) :
    decode (.csel w) = .ok (capOperation k m false) ↔ w &&& 0xF8#8 = cselWord k m .arm false := by
  have hph : k ≠ .rowCapture := by rintro rfl; rcases hm with h | h <;> cases h
  rw [decode_csel_eq_capOperation_iff hg, and_stateModeMask_iff]
  simp [hm, hph]

/-- A row of `ROW_CAPTURE` and a phase: mask `F1`. -/
theorem decode_csel_iff_phase (hg : w &&& 0x06#8 ≠ 0x06#8) (b : Bool) :
    decode (.csel w) = .ok (capOperation .rowCapture .dstn b) ↔
      w &&& 0xF1#8 = cselWord .rowCapture .dstn .arm b := by
  rw [decode_csel_eq_capOperation_iff hg, and_statePhaseMask_iff]
  simp [CapState.byMode]

/-! ## Rows selected inside others (R102, R127, R129) -/

/-- The words of a sampling state. -/
def SamplingWord (w : BitVec 8) : Prop :=
  ∃ c : CapState, w.extractLsb' 4 4 = c.code ∧ c.sampling = true

theorem CapState.sampling_iff {c : CapState} :
    c.sampling = true ↔ c = .discardLead ∨ c = .rowCapture ∨ c = .seqCapture := by
  cases c <;> simp [CapState.sampling]

theorem samplingWord_iff :
    SamplingWord w ↔ w &&& 0xF0#8 = cselWord .discardLead .dstn .arm false ∨
      w &&& 0xF0#8 = cselWord .rowCapture .dstn .arm false ∨
      w &&& 0xF0#8 = cselWord .seqCapture .dstn .arm false := by
  simp [SamplingWord, CapState.sampling_iff, and_stateMask_iff, and_or_left, exists_or]

theorem row_of_condition_iff {p : Prop} [Decidable p] {j : Instr} {r : Reject} :
    (if p then Except.ok j else Except.error r) = .ok i ↔ i = j ∧ p := by
  by_cases hp : p <;> simp [hp, eq_comm]

theorem innerOperation_buildMasks_iff :
    innerOperation .buildMasks c g = .ok i ↔ i = .buildMasks ∧ c = .bootResolve :=
  row_of_condition_iff

theorem innerOperation_selectMode_iff :
    innerOperation .selectMode c g = .ok i ↔ i = .selectMode ∧ c = .bootResolve :=
  row_of_condition_iff

theorem innerOperation_sampleByte_iff :
    innerOperation .sampleByte c g = .ok i ↔ i = .sampleByte ∧ c.sampling = true ∧ g = .read :=
  row_of_condition_iff.trans (by simp)

theorem innerOperation_gatedSample_iff :
    innerOperation .gatedSample c g = .ok i ↔ i = .gatedSample ∧ c.sampling = true :=
  row_of_condition_iff

theorem innerOperation_waitForLevel_iff {L : Bool} :
    innerOperation (.waitForLevel L) c g = .ok i ↔
      (i = .waitForLevel .fsync true ∧ c = .waitFrameHigh) ∨
      (i = .waitForLevel .fsync false ∧ c = .waitFrameLow) ∨
      (i = .waitForLevel .pclk (!L) ∧ c.sampling = true ∧ g = .arm) ∨
      (i = .waitForLevel .pclk L ∧ c.sampling = true ∧ g = .fire) := by
  cases c with
  | discardLead | rowCapture | seqCapture =>
    cases g <;> simp [innerOperation, CapState.sampling, eq_comm]
  | _ => simp [innerOperation, CapState.sampling, eq_comm]

section NotReserved

variable (hg : w &&& 0x06#8 ≠ 0x06#8)
include hg

theorem decode_inner_buildMasks_iff :
    decode (.inner .buildMasks w) = .ok i ↔
      i = .buildMasks ∧ w &&& 0xF0#8 = cselWord .bootResolve .dstn .arm false := by
  obtain ⟨g, hg⟩ := exists_gate_of_not_reserved hg
  simp [decode_inner_eq_ok_iff hg, innerOperation_buildMasks_iff, and_stateMask_iff, and_comm]

theorem decode_inner_selectMode_iff :
    decode (.inner .selectMode w) = .ok i ↔
      i = .selectMode ∧ w &&& 0xF0#8 = cselWord .bootResolve .dstn .arm false := by
  obtain ⟨g, hg⟩ := exists_gate_of_not_reserved hg
  simp [decode_inner_eq_ok_iff hg, innerOperation_selectMode_iff, and_stateMask_iff, and_comm]

theorem decode_inner_sampleByte_iff :
    decode (.inner .sampleByte w) = .ok i ↔
      i = .sampleByte ∧ SamplingWord w ∧
        w &&& 0x06#8 = cselWord .bootResolve .dstn .read false := by
  obtain ⟨g, hg⟩ := exists_gate_of_not_reserved hg
  simp only [decode_inner_eq_ok_iff hg, innerOperation_sampleByte_iff, and_gateMask_iff, hg,
    Gate.code_inj, SamplingWord]
  tauto

theorem decode_inner_gatedSample_iff :
    decode (.inner .gatedSample w) = .ok i ↔ i = .gatedSample ∧ SamplingWord w := by
  obtain ⟨g, hg⟩ := exists_gate_of_not_reserved hg
  simp only [decode_inner_eq_ok_iff hg, innerOperation_gatedSample_iff, SamplingWord]
  tauto

theorem decode_inner_waitForLevel_iff (L : Bool) :
    decode (.inner (.waitForLevel L) w) = .ok i ↔
      (i = .waitForLevel .fsync true ∧
        w &&& 0xF0#8 = cselWord .waitFrameHigh .dstn .arm false) ∨
      (i = .waitForLevel .fsync false ∧
        w &&& 0xF0#8 = cselWord .waitFrameLow .dstn .arm false) ∨
      (i = .waitForLevel .pclk (!L) ∧ SamplingWord w ∧
        w &&& 0x06#8 = cselWord .bootResolve .dstn .arm false) ∨
      (i = .waitForLevel .pclk L ∧ SamplingWord w ∧
        w &&& 0x06#8 = cselWord .bootResolve .dstn .fire false) := by
  obtain ⟨g, hg⟩ := exists_gate_of_not_reserved hg
  simp only [decode_inner_eq_ok_iff hg, innerOperation_waitForLevel_iff, and_stateMask_iff,
    and_gateMask_iff, hg, Gate.code_inj, SamplingWord, and_or_left, exists_or]
  refine or_congr ?_ (or_congr ?_ (or_congr ?_ ?_))
  · simp [and_comm]
  · simp [and_comm]
  · tauto
  · tauto

end NotReserved

/-! ## FEED and SINK rows (R102, R110) -/

theorem feedOperation_inj {f f' : FeedState} : feedOperation f = feedOperation f' ↔ f = f' := by
  cases f <;> cases f' <;> simp [feedOperation]

theorem decode_fsel_iff (w : BitVec 3) (f : FeedState) :
    decode (.fsel w) = .ok (feedOperation f) ↔ w = f.code := by
  rw [← FeedState.ofCode_eq_some_iff, decode]
  cases FeedState.ofCode w <;> simp [feedOperation_inj]

theorem decode_take_iff (w : BitVec 2) :
    decode (.ssel .take w) = .ok .sinkTakeValid ↔ w &&& 2#2 = 2#2 := by
  have bit : ∀ w : BitVec 2, w.getLsbD 1 = true ↔ w &&& 2#2 = 2#2 := by decide
  rw [← bit, decode]
  cases w.getLsbD 1 <;> simp

theorem decode_release_iff (w : BitVec 2) (h : Nat) :
    decode (.ssel (.release h) w) = .ok (.sinkReleaseFree h) ↔ w &&& 1#2 = 1#2 := by
  have bit : ∀ w : BitVec 2, w.getLsbD 0 = true ↔ w &&& 1#2 = 1#2 := by decide
  rw [← bit, decode]
  cases w.getLsbD 0 <;> simp

/-! ## DATA rows (R90, R93) -/

theorem decode_dataPair_append (x0 x1 : Byte) :
    decode (.dataPair (x0 ++ x1)) = .ok (.fPair x0 x1) := by
  have high : (x0 ++ x1).extractLsb' 8 8 = x0 := BitVec.extractLsb'_append_eq_left
  have low : (x0 ++ x1).extractLsb' 0 8 = x1 := BitVec.extractLsb'_append_eq_right
  exact congrArg Except.ok (congrArg₂ Instr.fPair high low)

/-! ## The statements -/

/-- Settles O1, row by row: most rows have one word, a wait has one for each level it can name, and
a pair is cut into the two bytes it is made of. -/
theorem decodeOfEncodeIsTheRow : Obligations.DecodeOfEncodeIsTheRow := by
  unfold Obligations.DecodeOfEncodeIsTheRow
  intro i
  cases i with
  | waitForLevel sig level => cases sig <;> cases level <;> rfl
  | fPair x0 x1 => exact decode_dataPair_append x0 x1
  | _ => rfl

/-- Settles O2: each csel word packs a control state, the others are read as they stand. -/
theorem writtenWordsSelectTheirRows : Obligations.WrittenWordsSelectTheirRows := by
  unfold Obligations.WrittenWordsSelectTheirRows
  exact ⟨decode_cselWord .bootResolve .dstn .arm false,
    decode_cselWord .waitFrameHigh .dstn .arm false, decode_cselWord .waitFrameHigh .tft .arm false,
    decode_cselWord .rowCapture .dstn .read false, decode_cselWord .rowCapture .dstn .read true,
    decode_cselWord .asmCopy .dstn .arm false, rfl, rfl, rfl, decode_dataPair_append 0xA5#8 0x3C#8⟩

/-- Settles O3, by the control state and, where its row depends on it, the mode. -/
theorem cselWordSelectsByControlState : Obligations.CselWordSelectsByControlState := by
  unfold Obligations.CselWordSelectsByControlState
  intro c m g ph
  refine ⟨Machine.unpackCsel_cselWord c m g ph, ?_⟩
  rw [decode_cselWord]
  cases c with
  | waitFrameHigh | done => cases m <;> rfl
  | _ => rfl

/-- Settles O4: each CAP row by the mask of what selects it, the inner rows by the enclosing control
state and the gate. -/
theorem rowsAreSelectedByMatchAndMask : Obligations.RowsAreSelectedByMatchAndMask := by
  unfold Obligations.RowsAreSelectedByMatchAndMask
  refine ⟨fun w hg => ?cap, fun w sampling i hg hs => ?inner, fun w => ?feed, fun w h => ?sink⟩
  case cap =>
    have byState := fun k hm hph => decode_csel_iff_state hg k hm hph
    have byMode := fun k m hk => decode_csel_iff_stateMode hg k m hk
    have byPhase := decode_csel_iff_phase hg
    exact ⟨byState .bootResolve nofun nofun, byMode .waitFrameHigh .dstn (.inl rfl),
      byState .waitFrameLow nofun nofun, byState .discardLead nofun nofun, byPhase false,
      byPhase true, byMode .done .dstn (.inr rfl), byMode .waitFrameHigh .tft (.inl rfl),
      byState .seqCapture nofun nofun, byMode .done .tft (.inr rfl),
      byState .asmSelect nofun nofun, byState .asmZero nofun nofun, byState .asmCopy nofun nofun,
      byState .asmPublish nofun nofun⟩
  case inner =>
    obtain rfl : sampling = SamplingWord w := hs.trans (propext samplingWord_iff.symm)
    exact ⟨decode_inner_buildMasks_iff hg, decode_inner_selectMode_iff hg,
      decode_inner_sampleByte_iff hg, decode_inner_gatedSample_iff hg,
      decode_inner_waitForLevel_iff hg⟩
  case feed =>
    exact ⟨decode_fsel_iff w .acquire, decode_fsel_iff w .readPtr, decode_fsel_iff w .readEncode,
      decode_fsel_iff w .submit, decode_fsel_iff w .advance⟩
  case sink => exact ⟨decode_take_iff w, decode_release_iff w h⟩

/-- Settles O5, by the codes no state stands for. -/
theorem reservedCodesSelectNoRow : Obligations.ReservedCodesSelectNoRow := by
  unfold Obligations.ReservedCodesSelectNoRow
  have capField (w : BitVec 8) : (w.extractLsb' 4 4).toNat = w.toNat / 16 := by
    rw [BitVec.extractLsb'_toNat, Nat.shiftRight_eq_div_pow]
    omega
  have gateField (w : BitVec 8) : (w.extractLsb' 1 2).toNat = w.toNat / 2 % 4 := by
    rw [BitVec.extractLsb'_toNat, Nat.shiftRight_eq_div_pow]
  refine ⟨fun w hcap => ?_, fun w hcap hgate => ?_, fun w hfeed => ?_⟩
  · rw [decode, unpackCsel, CapState.ofCode_eq_none_iff.2 ((capField w).symm ▸ hcap)]
  · obtain ⟨c, hc⟩ : ∃ c, CapState.ofCode (w.extractLsb' 4 4) = some c := by
      rw [← Option.ne_none_iff_exists', ne_eq, CapState.ofCode_eq_none_iff, capField]
      omega
    have hg : w.extractLsb' 1 2 = 3#2 := BitVec.eq_of_toNat_eq ((gateField w).trans hgate)
    rw [decode, unpackCsel, hc, Gate.ofCode_eq_none_iff.2 hg]
  · rw [decode, FeedState.ofCode_eq_none_iff.2 hfeed]

end Sys2Proof

/-! # One turn: the row a selector word selects (R102, R106, R110) -/

namespace Sys2Proof.Machine

variable {s : State} {i : Instr} {rest : List Turn}

theorem runSelector_of_decode {sel : Selector} (h : decode sel = .ok i) (s : State) :
    runSelector sel s = exec i s := by
  rw [runSelector, h]

theorem runCap_of_decode (hp : impossiblePair s.capState s.mode = false)
    (h : decode (.csel s.csel) = .ok i) : runCap s = exec i s := by
  rw [runCap, hp, if_neg Bool.false_ne_true, runSelector_of_decode h]

theorem runSink_of_decode {c : SinkChoice} (h : decode (.ssel c s.ssel) = .ok i) :
    runSink c s = exec i s := by
  rw [runSink, h]

/-- Settles O7: the turn at the head of the script runs in a state with the same selector words. -/
theorem stepRunsTheSelectedRow : Obligations.StepRunsTheSelectedRow := by
  unfold Obligations.StepRunsTheSelectedRow
  intro s rest i
  refine ⟨fun hs hp h => ?cap, fun hs h => ?feed, fun hs h => ?take, fun b hs h => ?release,
    fun sel hs h => ?placed⟩ <;> rw [step_of_script_cons hs]
  case cap => exact runCap_of_decode (s := { s with script := rest }) hp h
  case feed => exact runSelector_of_decode h _
  case take => exact runSink_of_decode (s := { s with script := rest }) h
  case release => exact runSink_of_decode (s := { s with script := rest }) h
  case placed => exact runSelector_of_decode h _

/-! # The pairs of R106(c) -/

theorem impossiblePair_iff {c : CapState} {m : Mode} :
    impossiblePair c m = true ↔
      (m = .tft ∧ (c = .waitFrameLow ∨ c = .discardLead ∨ c = .rowCapture)) ∨
      (m = .dstn ∧ c = .seqCapture) := by
  cases c <;> cases m <;> simp [impossiblePair]

theorem Result.ofExcept_ne_refused (e : Except Fault State) (r : Refusal) :
    Result.ofExcept e ≠ .refused r := by
  cases e <;> exact nofun

theorem State.gated_ne_refused {act : State → Byte → Result} {r : Refusal}
    (h : act s.takeSample s.busByte ≠ .refused r) : s.gated act ≠ .refused r := by
  unfold State.gated
  cases s.gate with
  | arm | fire => exact nofun
  | read => exact h

theorem execAsmZero_ne_refused (s : State) (r : Refusal) : execAsmZero s ≠ .refused r := by
  unfold execAsmZero
  split <;> exact nofun

theorem execAsmCopy_ne_refused (s : State) (r : Refusal) : execAsmCopy s ≠ .refused r := by
  unfold execAsmCopy
  split
  · exact nofun
  · split <;> exact nofun

/-- No row CAP performs is refused: it stores at most, and a store answers or faults. -/
theorem exec_capOperation_ne_refused (c : CapState) (m : Mode) (ph : Bool) (s : State)
    (r : Refusal) : exec (capOperation c m ph) s ≠ .refused r := by
  cases c with
  | bootResolve | waitFrameLow | asmSelect | asmPublish => exact nofun
  | waitFrameHigh | done => cases m <;> exact nofun
  | discardLead =>
    rw [capOperation, exec_dDiscardLead]
    exact State.gated_ne_refused nofun
  | rowCapture =>
    cases ph with
    | false =>
      rw [capOperation, if_neg Bool.false_ne_true, exec_dRowCaptureS0]
      exact State.gated_ne_refused nofun
    | true =>
      rw [capOperation, if_pos rfl, exec_dRowCaptureS1]
      exact State.gated_ne_refused (Result.ofExcept_ne_refused _ r)
  | seqCapture =>
    rw [capOperation, exec_tSeqCapture]
    exact State.gated_ne_refused (Result.ofExcept_ne_refused _ r)
  | asmZero => exact execAsmZero_ne_refused s r
  | asmCopy => exact execAsmCopy_ne_refused s r

/-- Settles O8: the check of R106(c) refuses its pairs by name, and past it a row of CAP runs, which
no state refuses. -/
theorem impossibleCombinationsAreRefused : Obligations.ImpossibleCombinationsAreRefused := by
  unfold Obligations.ImpossibleCombinationsAreRefused
  intro s
  rw [← impossiblePair_iff]
  refine ⟨fun hp => if_pos hp, fun h => ?_⟩
  by_contra hp
  rw [runMove, runCap_eq (Bool.eq_false_iff.2 hp)] at h
  exact exec_capOperation_ne_refused _ _ _ s _ h

/-! # The sampling primitives and the row that encloses them (R102, R126, R127) -/

theorem State.wait_congr {sig : Signal} {lvl : Bool} {k k' : State → State} (h : k s = k' s) :
    s.wait sig lvl k = s.wait sig lvl k' := by
  rw [State.wait, h, State.wait]

/-- The poll the state makes lets its operation go on (R126). -/
theorem exec_waitForLevel_of_awaited {sig : Signal} {lvl : Bool}
    (h : s.awaited = some (sig, lvl)) :
    exec (.waitForLevel sig lvl) s = s.wait sig lvl State.goOn :=
  State.wait_congr (if_pos h)

theorem State.gated_congr {act act' : State → Byte → Result}
    (h : act s.takeSample s.busByte = act' s.takeSample s.busByte) : s.gated act = s.gated act' := by
  rw [State.gated, h, State.gated]

/-! ## What a delivered sample does, state by state -/

theorem State.deliver_discardLead (hc : s.capState = .discardLead) (b : Byte) :
    s.deliver b = .next s.discardLead := by
  rw [State.deliver, hc]

theorem State.deliver_first (hc : s.capState = .rowCapture) (hph : s.phase = false) (b : Byte) :
    s.deliver b = .next (s.takeS0 b) := by
  rw [State.deliver, hc, hph]
  rfl

theorem State.deliver_second (hc : s.capState = .rowCapture) (hph : s.phase = true) (b : Byte) :
    s.deliver b = Result.ofExcept (s.takeS1 b) := by
  rw [State.deliver, hc, hph]
  rfl

theorem State.deliver_seqCapture (hc : s.capState = .seqCapture) (b : Byte) :
    s.deliver b = Result.ofExcept (s.takeTft b) := by
  rw [State.deliver, hc]

/-- In a sampling state CAP's row is the clock-gated sample with delivery to that state (R127). -/
theorem exec_capOperation_of_sampling (h : s.capState.sampling = true) :
    exec (capOperation s.capState s.mode s.phase) s = s.gated State.deliver := by
  rcases CapState.sampling_iff.1 h with hc | hc | hc
  · rw [hc, capOperation, exec_dDiscardLead]
    exact State.gated_congr (State.deliver_discardLead (s := s.takeSample) hc _).symm
  · cases hph : s.phase with
    | false =>
      rw [hc, capOperation, if_neg Bool.false_ne_true, exec_dRowCaptureS0]
      exact State.gated_congr (State.deliver_first (s := s.takeSample) hc hph _).symm
    | true =>
      rw [hc, capOperation, if_pos rfl, exec_dRowCaptureS1]
      exact State.gated_congr (State.deliver_second (s := s.takeSample) hc hph _).symm
  · rw [hc, capOperation, exec_tSeqCapture]
    exact State.gated_congr (State.deliver_seqCapture (s := s.takeSample) hc _).symm

/-! ## What a state polls for (R126, R129) -/

/-- In a sampling state `gate` says which level of the pixel clock is polled for. -/
theorem State.awaited_of_sampling {sig : Signal} {lvl : Bool} (h : s.capState.sampling = true)
    (ha : s.awaited = some (sig, lvl)) :
    (s.gate = .arm ∧ sig = .pclk ∧ lvl = !s.par.pclkSampleLevel) ∨
    (s.gate = .fire ∧ sig = .pclk ∧ lvl = s.par.pclkSampleLevel) := by
  unfold State.awaited at ha
  rcases CapState.sampling_iff.1 h with hc | hc | hc <;> cases hg : s.gate <;>
    simp_all [CapState.sampling]

theorem State.goOn_of_sampling (h : s.capState.sampling = true) :
    (s.gate = .arm → s.goOn = s.afterArm) ∧ (s.gate = .fire → s.goOn = s.afterFire) := by
  rcases CapState.sampling_iff.1 h with hc | hc | hc <;>
    exact ⟨fun hg => by rw [State.goOn, hc, hg], fun hg => by rw [State.goOn, hc, hg]⟩

/-- The poll of a clock-gated sample is the wait its state makes (R126, R127). -/
theorem State.gated_of_awaited {sig : Signal} {lvl : Bool} (h : s.capState.sampling = true)
    (ha : s.awaited = some (sig, lvl)) (act : State → Byte → Result) :
    s.gated act = s.wait sig lvl State.goOn := by
  obtain ⟨onArm, onFire⟩ := State.goOn_of_sampling h
  rcases State.awaited_of_sampling h ha with ⟨hg, rfl, rfl⟩ | ⟨hg, rfl, rfl⟩ <;>
    rw [State.gated, hg]
  · exact State.wait_congr (onArm hg).symm
  · exact State.wait_congr (onFire hg).symm

/-- Outside the sampling states only the two frame-sync waits poll. -/
theorem State.awaited_of_not_sampling {sig : Signal} {lvl : Bool}
    (hc : ¬ s.capState.sampling = true) (h : s.awaited = some (sig, lvl)) :
    (s.capState = .waitFrameHigh ∧ sig = .fsync ∧ lvl = true) ∨
    (s.capState = .waitFrameLow ∧ sig = .fsync ∧ lvl = false) := by
  unfold State.awaited at h
  cases hs : s.capState <;> simp_all [CapState.sampling]

/-- Settles O21: a sampling state's row is the clock-gated sample, whose polls are the waits; the
other polls are the frame-sync waits. -/
theorem primitivesAreTheEnclosingStep : Obligations.PrimitivesAreTheEnclosingStep := by
  unfold Obligations.PrimitivesAreTheEnclosingStep
  intro s hp
  simp only [runMove, runCap_eq hp]
  refine ⟨fun sig lvl h => ?poll, fun hc => (exec_capOperation_of_sampling hc).symm⟩
  rw [exec_waitForLevel_of_awaited h]
  by_cases hc : s.capState.sampling = true
  · rw [exec_capOperation_of_sampling hc, State.gated_of_awaited hc h]
  · rcases State.awaited_of_not_sampling hc h with ⟨hw, rfl, rfl⟩ | ⟨hw, rfl, rfl⟩
    · cases hm : s.mode <;> rw [hw] <;> exact State.wait_congr (by rw [State.goOn, hw, hm])
    · rw [hw]
      exact State.wait_congr (by rw [State.goOn, hw])

end Sys2Proof.Machine

/-! # The data formats as rows (R90 to R97, R109) -/

namespace Sys2Proof.Machine

variable {s : State}

/-! ## F-STRAP and F-SAMPLE (R92, R95, R96) -/

/-- What a strap code selects, as the table of R96; code 3 leaves the pin table. -/
theorem State.latchStrap_eq (s : State) (code : BitVec 2) :
    s.latchStrap code =
      { s with
          strapCode := code
          profileTag := profileOf code
          pin := if code = 3#2 then s.pin else tableOf s.par code
          cfgUnrecognised := if code = 3#2 then true else s.cfgUnrecognised } := by
  have codes : ∀ c : BitVec 2, c = 0#2 ∨ c = 1#2 ∨ c = 2#2 ∨ c = 3#2 := by decide
  rcases codes code with rfl | rfl | rfl | rfl <;> rfl

/-- Settles O15, by the table of R96. -/
theorem strapAndSampleFormatResult : Obligations.StrapAndSampleFormatResult := by
  unfold Obligations.StrapAndSampleFormatResult
  refine ⟨fun s code => ?_, fun s b => rfl⟩
  calc exec (.fStrap code) s
    _ = .next (s.latchStrap code).selectMode := rfl
    _ = _ := by rw [State.latchStrap_eq]; rfl

/-! ## F-PAIR (R93, R145 to R147) -/

/-- The position after a pair, field by field. -/
theorem State.nextPair_eq (s : State) :
    s.nextPair =
      { s with
          phase := false
          col := if s.col < 79 then s.col + 1 else 0
          y := if s.col < 79 then s.y else if s.y < 199 then s.y + 1 else s.y
          capState := if s.col < 79 then s.capState else if s.y < 199 then s.capState
            else .done } := by
  simp only [State.nextPair, Config.bytesPerRow, Config.halfH]
  by_cases hcol : s.col < 79
  · simp [hcol]
  · by_cases hy : s.y < 199 <;> simp [hcol, hy]

theorem State.rawByte_nextPair (s : State) (a : Nat) : s.nextPair.rawByte a = s.rawByte a := by
  rw [State.nextPair_eq]
  rfl

theorem State.slotByte_nextPair (s : State) (k : Fin 2) (a : Nat) :
    s.nextPair.slotByte k a = s.slotByte k a := by
  rw [State.nextPair_eq]
  rfl

/-- What the second sample of a pair stores, what it leaves, and where it leaves the position. -/
theorem State.takeS1_result (b : Byte) (hc : s.col < 80) :
    ∃ t, s.takeS1 b = .ok t ∧
      t.rawByte (topOffset s.y s.col) = topByte s.s0 b ∧
      t.rawByte (bottomOffset s.y s.col) = bottomByte s.s0 b ∧
      (∀ a, a ≠ topOffset s.y s.col → a ≠ bottomOffset s.y s.col → t.rawByte a = s.rawByte a) ∧
      (∀ k a, t.slotByte k a = s.slotByte k a) ∧
      t = { s with
              s1 := b, phase := false
              rawFrame := t.rawFrame
              col := if s.col < 79 then s.col + 1 else 0
              y := if s.col < 79 then s.y else if s.y < 199 then s.y + 1 else s.y
              capState := if s.col < 79 then s.capState else if s.y < 199 then s.capState
                else .done } := by
  have apart : topOffset s.y s.col ≠ bottomOffset s.y s.col := by
    rw [bottomOffset_eq]
    omega
  refine ⟨_, State.takeS1_of_lt b hc, ?top, ?bottom, fun a htop hbot => ?other, fun k a => ?slot,
    ?frame⟩
  case top =>
    rw [State.rawByte_nextPair, State.rawByte_setRaw, if_neg apart, State.rawByte_setRaw, if_pos rfl]
  case bottom => rw [State.rawByte_nextPair, State.rawByte_setRaw, if_pos rfl]
  case other =>
    rw [State.rawByte_nextPair, State.rawByte_setRaw, if_neg hbot, State.rawByte_setRaw,
      if_neg htop]
    rfl
  case slot =>
    rw [State.slotByte_nextPair]
    rfl
  case frame =>
    rw [State.nextPair_eq]
    rfl

/-- Settles O26: the second sample of the pair, after the first has been taken. -/
theorem pairFormatResult : Obligations.PairFormatResult := by
  unfold Obligations.PairFormatResult
  rintro s x0 x1 top bottom hc rfl rfl
  obtain ⟨t, ht, htop, hbot, hother, hslot, hframe⟩ :=
    State.takeS1_result (s := s.takeS0 x0) x1 hc
  exact ⟨t, congrArg Result.ofExcept ht, htop, hbot, hother, hslot, hframe⟩

/-! ## F-TFT (R62, R97, R162) -/

/-- The index after a stored byte, field by field. -/
theorem State.nextByte_eq (s : State) :
    s.nextByte =
      { s with
          i := if s.i < 31999 then s.i + 1 else s.i
          capState := if s.i < 31999 then s.capState else .done } := by
  simp only [State.nextByte, Config.frameBytes]
  by_cases hi : s.i < 31999 <;> simp [hi]

theorem State.rawByte_nextByte (s : State) (a : Nat) : s.nextByte.rawByte a = s.rawByte a := by
  rw [State.nextByte_eq]
  rfl

/-- What a TFT sample stores, what it leaves, and where it leaves the index. -/
theorem State.takeTft_result (b : Byte) (hi : s.i < 32000) :
    ∃ t, s.takeTft b = .ok t ∧
      t.rawByte s.i = b ∧
      (∀ a, a ≠ s.i → t.rawByte a = s.rawByte a) ∧
      (∀ k a, t.slotByte k a = s.slotByte k a) ∧
      t = { s with
              rawFrame := t.rawFrame
              i := if s.i < 31999 then s.i + 1 else s.i
              capState := if s.i < 31999 then s.capState else .done } := by
  refine ⟨_, State.takeTft_of_lt b hi, ?stored, fun a ha => ?other, fun k a => ?slot, ?frame⟩
  case stored => rw [State.rawByte_nextByte, State.rawByte_setRaw, if_pos rfl]
  case other => rw [State.rawByte_nextByte, State.rawByte_setRaw, if_neg ha]
  case slot =>
    rw [State.nextByte_eq]
    rfl
  case frame =>
    rw [State.nextByte_eq]
    rfl

/-- Pixel `j` of the eight of byte `off` is its bit `7 - j` (R62). -/
theorem State.rawPixel_of_byte (s : State) (off : Nat) {j : Nat} (hj : j < 8) :
    s.rawPixel (8 * (off % 80) + j) (off / 80) = (s.rawByte off).getLsbD (7 - j) := by
  have hoff : pixelOffset (8 * (off % 80) + j) (off / 80) = off := by
    simp only [pixelOffset, Config.bytesPerRow]
    omega
  have hbit : pixelBit (8 * (off % 80) + j) = 7 - j := by
    simp only [pixelBit]
    omega
  rw [State.rawPixel, hoff, hbit]

/-- Settles O30: the stored byte, read back pixel by pixel. -/
theorem tftFormatResult : Obligations.TftFormatResult := by
  unfold Obligations.TftFormatResult
  intro s b hi
  obtain ⟨t, ht, hstored, hother, hslot, hframe⟩ := State.takeTft_result b hi
  refine ⟨t, congrArg Result.ofExcept ht, hstored, fun j hj => ?_, hother, hslot, hframe⟩
  rw [State.rawPixel_of_byte t s.i hj, hstored]

/-! ## The `DATA xx` line and the bus sample (R92, R109, R133) -/

theorem pinLevel_or (w v : PinWord) (q : PinId) :
    pinLevel (w ||| v) q = (pinLevel w q || pinLevel v q) := Nat.testBit_or ..

theorem pinLevel_pinAt (p : PinId) (v : Bool) (q : PinId) :
    pinLevel (pinAt p v) q = (v && decide (p = q)) := by
  cases v
  · exact Nat.zero_testBit q
  · exact pinLevel_pinBit p q

/-- Data line `k` gives bit `7 - k` of a sample (R92). -/
theorem getLsbD_packSample (w : PinWord) (mask : Vector PinWord 8) (k : Fin 8) :
    (packSample w mask).getLsbD (7 - k) = maskHit w mask[k] := by
  simp only [packSample, BitVec.getLsbD_append]
  fin_cases k <;> simp

/-- The pins a `DATA` line drives are the data pins. -/
theorem pinLevel_dataPins (t : PinTable) (k : Fin 8) : pinLevel (dataPins t) t.d[k] = true := by
  simp only [dataPins, pinLevel_or, pinLevel_pinBit]
  fin_cases k <;> simp

/-- A pin is driven to 1 by the data lines on it whose bit is 1 (log entry 31). -/
theorem pinLevel_dataLevels (t : PinTable) (b : Byte) (q : PinId) :
    pinLevel (dataLevels t b) q = true ↔ ∃ k : Fin 8, b.getLsbD (7 - k) = true ∧ t.d[k] = q := by
  simp only [dataLevels, pinLevel_or, pinLevel_pinAt]
  simp [Fin.exists_fin_succ, or_assoc]

/-- The data lines of a well-formed profile are on pins of their own (R23, R133). -/
theorem data_inj_of_wellFormed {t : PinTable} (h : t.WellFormed) {j k : Fin 8}
    (hjk : t.d[j] = t.d[k]) : j = k := by
  have hd : t.d.toList.Nodup := (List.nodup_append.1 (List.nodup_append.1 h).1).1
  exact Fin.ext ((hd.getElem_inj_iff (hi := by simp) (hj := by simp)).1 (by simpa using hjk))

/-- On a well-formed profile each data line is driven to its own bit (R109). -/
theorem pinLevel_dataLevels_data {t : PinTable} (h : t.WellFormed) (b : Byte) (k : Fin 8) :
    pinLevel (dataLevels t b) t.d[k] = b.getLsbD (7 - k) := by
  rw [Bool.eq_iff_iff, pinLevel_dataLevels]
  constructor
  · rintro ⟨j, hj, hjk⟩
    exact data_inj_of_wellFormed h hjk ▸ hj
  · exact fun hk => ⟨k, hk, rfl⟩

/-- Settles O12, bit by bit: the bit's data line is driven to the bit and read back through its
mask. -/
theorem dataLineIsSampledBack : Obligations.DataLineIsSampledBack := by
  unfold Obligations.DataLineIsSampledBack
  intro s t b hwf hwithin hmask h
  obtain rfl : s.drive (dataPins s.pin) (dataLevels s.pin b) = t := by cases h; rfl
  have bit (k : Fin 8) :
      (s.drive (dataPins s.pin) (dataLevels s.pin b)).busByte.getLsbD (7 - k) =
        b.getLsbD (7 - k) := by
    have hpin : s.pin.d[k] < s.par.nPins := hwithin _ (by simp [PinTable.ids])
    have hk : (masksOf s.pin)[k] = pinBit s.pin.d[k] := masksOf_get s.pin k.isLt
    rw [State.busByte, getLsbD_packSample, State.drive_mask, hmask, hk, maskHit_pinBit,
      State.drive_pins, pinLevel_drivePins, pinLevel_dataPins, if_pos rfl,
      pinLevel_dataLevels_data hwf, decide_eq_true hpin, Bool.true_and]
  apply BitVec.eq_of_getLsbD_eq
  intro j hj
  have hj7 : 7 - (7 - j) = j := by omega
  simpa only [hj7] using bit ⟨7 - j, by omega⟩

end Sys2Proof.Machine

/-! # The resolver (R95, R96, R121 to R124) -/

namespace Sys2Proof.Machine

variable {s : State}

/-! ## BOOT_RESOLVE, and its parts as rows of their own -/

theorem exec_bootResolve (s : State) : exec .bootResolve s = .next s.booted := rfl

theorem profileOf_eq (code : BitVec 2) :
    profileOf code = if code = 0#2 then .a else if code = 1#2 then .b
      else if code = 2#2 then .c else .none := by
  revert code
  decide

/-- The table `BOOT_RESOLVE` leaves, code by code: code 3 writes none (R96, R121). -/
theorem tableOf_or_kept_eq (par : Params) (code : BitVec 2) (kept : PinTable) :
    (if code = 3#2 then kept else tableOf par code) =
      if code = 0#2 then par.pinTable[0] else if code = 1#2 then par.pinTable[1]
      else if code = 2#2 then par.pinTable[2] else kept := by
  have codes : ∀ c : BitVec 2, c = 0#2 ∨ c = 1#2 ∨ c = 2#2 ∨ c = 3#2 := by decide
  rcases codes code with rfl | rfl | rfl | rfl <;> rfl

/-- Settles O13: the strap code on the pins is latched by the table of R96, and the masks and the
mode are computed from what was latched. -/
theorem bootResolveResult : Obligations.BootResolveResult := by
  unfold Obligations.BootResolveResult
  rintro s code table hcode rfl
  have hstrap : s.strapOnPins = code := hcode.symm
  rw [exec_bootResolve, State.booted, hstrap, State.latchStrap_eq, profileOf_eq, tableOf_or_kept_eq]
  rfl

/-- Settles O14, by the mask of each data pin; `SELECT_MODE` is R123 as it stands. -/
theorem buildMasksAndSelectModeResult : Obligations.BuildMasksAndSelectModeResult := by
  unfold Obligations.BuildMasksAndSelectModeResult
  refine fun s => ⟨⟨s.buildMasks, rfl, rfl, fun k hk => masksOf_get s.pin hk, fun k hk p => ?_⟩, rfl⟩
  have hmask : s.buildMasks.mask[k] = pinBit s.pin.d[k] := masksOf_get s.pin hk
  rw [hmask, pinLevel_pinBit]
  exact decide_eq_decide.2 eq_comm

/-! ## Strap code 3 (R124) -/

/-- Both straps at 0 are strap code 3 (R95). -/
theorem State.strapOnPins_of_low (h0 : pinLevel s.pins s.par.strapPin0 = false)
    (h1 : pinLevel s.pins s.par.strapPin1 = false) : s.strapOnPins = 3#2 := by
  rw [State.strapOnPins, h0, h1]
  rfl

/-- The configuration `BOOT_RESOLVE` computes from code 3 right after reset: the zero table, and the
masks of that table. -/
theorem State.Unconfigured.booted_of_code_three (h : s.Unconfigured) (hcode : s.strapOnPins = 3#2) :
    s.booted =
      { s with
          strapCode := 3#2, profileTag := .none, pin := PinTable.zero
          mask := masksOf PinTable.zero, mode := s.par.modeOfCode[3]
          cfgUnrecognised := true, capState := .waitFrameHigh } := by
  rw [State.booted, hcode, h.latchStrap]
  rfl

@[simp] theorem PinTable.zero_data {k : Nat} (hk : k < 8) : PinTable.zero.d[k] = 0 :=
  Vector.getElem_replicate hk

theorem masksOf_zero_get {k : Nat} (hk : k < 8) : (masksOf PinTable.zero)[k] = 1 := by
  rw [masksOf_get _ hk, PinTable.zero_data]
  rfl

/-- With every data line on pin 0 the eight bits of a sample are the level of pin 0 (R124). -/
theorem packSample_masksOf_zero (w : PinWord) :
    packSample w (masksOf PinTable.zero) = if pinLevel w 0 then 0xFF#8 else 0x00#8 := by
  have hit : ∀ k (hk : k < 8), maskHit w (masksOf PinTable.zero)[k] = pinLevel w 0 := by
    intro k hk
    rw [masksOf_get _ hk, maskHit_pinBit, PinTable.zero_data]
  simp only [packSample, hit]
  cases pinLevel w 0 <;> rfl

/-- Settles O16: the state after boot holds the zero table, which puts both polls and all eight data
lines on pin 0. -/
theorem strapCodeThreeReadsPinZero : Obligations.StrapCodeThreeReadsPinZero := by
  unfold Obligations.StrapCodeThreeReadsPinZero
  intro s hs h0 h1
  rw [exec_bootResolve, hs.booted_of_code_three (State.strapOnPins_of_low h0 h1)]
  refine ⟨_, rfl, rfl, rfl, rfl, fun k hk => PinTable.zero_data hk, rfl, rfl, rfl,
    fun k hk => masksOf_zero_get hk, rfl, fun w => ⟨packSample_masksOf_zero w, fun sig => ?_⟩⟩
  cases sig <;> rfl

end Sys2Proof.Machine

/-! # The sampler (R125 to R127) -/

namespace Sys2Proof.Machine

variable {s : State}

/-! ## SAMPLE_BYTE (R92, R125) -/

theorem maskHit_eq_decide (w mask : PinWord) : maskHit w mask = decide (w &&& mask ≠ 0) := by
  rw [maskHit, bne, beq_eq_decide, decide_not]

/-- Settles O18: bit `7 - k` of the packed byte is the hit of mask `k`. -/
theorem sampleByteResult : Obligations.SampleByteResult := by
  unfold Obligations.SampleByteResult
  refine fun s => ⟨{ s with sample := s.busByte }, rfl, rfl, fun k hk => ?_⟩
  exact (getLsbD_packSample s.pins s.mask ⟨k, hk⟩).trans (maskHit_eq_decide _ _)

/-! ## WAIT_FOR_LEVEL (R126) -/

theorem exec_waitForLevel_of_not_level {sig : Signal} {lvl : Bool} (h : s.level sig ≠ lvl) :
    exec (.waitForLevel sig lvl) s = .next s :=
  State.wait_of_not_level _ h

/-- A level found that the state does not poll for changes nothing. -/
theorem exec_waitForLevel_of_not_awaited {sig : Signal} {lvl : Bool} (h : s.level sig = lvl)
    (ha : s.awaited ≠ some (sig, lvl)) : exec (.waitForLevel sig lvl) s = .next s :=
  (State.wait_of_level _ h).trans (congrArg Host.Outcome.next (if_neg ha))

/-- The awaited level found lets the enclosing operation go on. -/
theorem exec_waitForLevel_of_found {sig : Signal} {lvl : Bool} (h : s.level sig = lvl)
    (ha : s.awaited = some (sig, lvl)) : exec (.waitForLevel sig lvl) s = .next s.goOn := by
  rw [exec_waitForLevel_of_awaited ha, State.wait_of_level _ h]

/-- Where a sampling state polls, going on moves the gate to its next phase (R127). -/
theorem State.goOn_of_awaited_sampling {sig : Signal} {lvl : Bool}
    (hc : s.capState.sampling = true) (ha : s.awaited = some (sig, lvl)) :
    s.goOn = { s with gate := if s.gate = .arm then .fire else .read } := by
  obtain ⟨onArm, onFire⟩ := State.goOn_of_sampling hc
  rcases State.awaited_of_sampling hc ha with ⟨hg, -, -⟩ | ⟨hg, -, -⟩
  · rw [onArm hg, hg]
    rfl
  · rw [onFire hg, hg]
    rfl

theorem State.goOn_of_highDstn (hc : s.capState = .waitFrameHigh) (hm : s.mode = .dstn) :
    s.goOn = s.afterHighDstn := by
  rw [State.goOn, hc, hm]

theorem State.goOn_of_highTft (hc : s.capState = .waitFrameHigh) (hm : s.mode = .tft) :
    s.goOn = s.afterHighTft := by
  rw [State.goOn, hc, hm]

theorem State.goOn_of_waitFrameLow (hc : s.capState = .waitFrameLow) :
    s.goOn = s.afterLowDstn := by
  rw [State.goOn, hc]

/-- Settles O19, by the outcomes of a poll; the awaited level goes on as the control state says. -/
theorem waitForLevelResult : Obligations.WaitForLevelResult := by
  unfold Obligations.WaitForLevelResult
  refine fun s sig lvl => ⟨exec_waitForLevel_of_not_level, exec_waitForLevel_of_not_awaited,
    fun h ha hc => ?sampling, fun h ha hc => ?high, fun h ha hc => ?low⟩ <;>
    rw [exec_waitForLevel_of_found h ha]
  case sampling => rw [State.goOn_of_awaited_sampling hc ha]
  case high =>
    split
    case h_1 hm =>
      rw [State.goOn_of_highDstn hc hm]
      rfl
    case h_2 hm =>
      rw [State.goOn_of_highTft hc hm]
      rfl
  case low =>
    rw [State.goOn_of_waitFrameLow hc]
    rfl

/-! ## GATED_SAMPLE: the polls (R127) -/

theorem State.gated_arm (act : State → Byte → Result) (hg : s.gate = .arm) :
    s.gated act = .next (if s.level .pclk = !s.par.pclkSampleLevel
      then { s with gate := .fire } else s) := by
  rw [State.gated, hg]
  rfl

theorem State.gated_fire (act : State → Byte → Result) (hg : s.gate = .fire) :
    s.gated act = .next (if s.level .pclk = s.par.pclkSampleLevel
      then { s with gate := .read } else s) := by
  rw [State.gated, hg]
  rfl

theorem exec_gatedSample (s : State) : exec .gatedSample s = s.gated State.deliver := rfl

/-- `GATED_SAMPLE` and the four rows that enclose it are one clock-gated sample, each with an action
of its own on the delivered byte (R127). -/
theorem exec_eq_gated_of_mem {i : Instr}
    (hi : i ∈ [Instr.gatedSample, .dDiscardLead, .dRowCaptureS0, .dRowCaptureS1, .tSeqCapture])
    (s : State) : ∃ act, exec i s = s.gated act := by
  simp only [List.mem_cons, List.not_mem_nil, or_false] at hi
  rcases hi with rfl | rfl | rfl | rfl | rfl
  · exact ⟨_, exec_gatedSample s⟩
  · exact ⟨_, exec_dDiscardLead s⟩
  · exact ⟨_, exec_dRowCaptureS0 s⟩
  · exact ⟨_, exec_dRowCaptureS1 s⟩
  · exact ⟨_, exec_tSeqCapture s⟩

/-! ## GATED_SAMPLE: the delivered read (R127) -/

/-- What the read of a sample has written stands: the armed gate, the byte and the stream. -/
def SampleKept (s t : State) : Prop :=
  t.gate = s.gate ∧ t.sample = s.sample ∧ t.stream = s.stream

theorem State.discardLead_sampleKept (s : State) : SampleKept s s.discardLead := by
  unfold State.discardLead
  dsimp only
  split <;> exact ⟨rfl, rfl, rfl⟩

/-- In a sampling state, at a position inside the frame, a delivered byte is taken, and taking it
leaves what the read has written. -/
theorem State.deliver_sampleKept (hc : s.capState.sampling = true)
    (hcol : s.col < Config.bytesPerRow) (hi : s.i < Config.frameBytes) (b : Byte) :
    ∃ t, s.deliver b = .next t ∧ SampleKept s t := by
  rcases CapState.sampling_iff.1 hc with hc | hc | hc
  · exact ⟨_, State.deliver_discardLead hc b, s.discardLead_sampleKept⟩
  · cases hph : s.phase with
    | false => exact ⟨_, State.deliver_first hc hph b, rfl, rfl, rfl⟩
    | true =>
      obtain ⟨t, ht, -, -, -, -, hframe⟩ := State.takeS1_result b hcol
      refine ⟨t, (State.deliver_second hc hph b).trans (congrArg Result.ofExcept ht), ?_⟩
      rw [hframe]
      exact ⟨rfl, rfl, rfl⟩
  · obtain ⟨t, ht, -, -, -, hframe⟩ := State.takeTft_result b hi
    refine ⟨t, (State.deliver_seqCapture hc b).trans (congrArg Result.ofExcept ht), ?_⟩
    rw [hframe]
    exact ⟨rfl, rfl, rfl⟩

/-- Settles O20: the polls are those of one clock-gated sample whatever encloses it, and the read is
delivered to the operation the sampling state selects. -/
theorem gatedSampleResult : Obligations.GatedSampleResult := by
  unfold Obligations.GatedSampleResult
  refine ⟨fun s i hi => ?polls, fun s hc hg hcol hi => ?read⟩
  case polls =>
    obtain ⟨act, hact⟩ := exec_eq_gated_of_mem hi s
    rw [hact]
    exact ⟨State.gated_arm act, State.gated_fire act⟩
  case read =>
    obtain ⟨t, ht, hgate, hsample, hstream⟩ :=
      State.deliver_sampleKept (s := s.takeSample) hc hcol hi s.busByte
    refine ⟨t, ?_, hgate, hsample, hstream, (exec_capOperation_of_sampling hc).symm⟩
    rw [exec_gatedSample, State.gated_read hg, ht]

end Sys2Proof.Machine

/-! # The DSTN pair: its bytes and its place (R94, R146, R147, R150) -/

namespace Sys2Proof.Machine

/-! ## The two bytes of a pair (R146) -/

/-- The top byte holds the high half of both samples, the second one's first. -/
theorem getLsbD_topByte (x0 x1 : Byte) {i : Nat} (hi : i < 8) :
    (topByte x0 x1).getLsbD i = if i < 4 then x0.getLsbD (i + 4) else x1.getLsbD i := by
  simp only [topByte, BitVec.getLsbD_or, BitVec.getLsbD_and, BitVec.getLsbD_ushiftRight]
  interval_cases i <;> simp

/-- The bottom byte holds the low half of both samples, the second one's first. -/
theorem getLsbD_bottomByte (x0 x1 : Byte) {i : Nat} (hi : i < 8) :
    (bottomByte x0 x1).getLsbD i = if i < 4 then x0.getLsbD i else x1.getLsbD (i - 4) := by
  simp only [bottomByte, BitVec.getLsbD_or, BitVec.getLsbD_and, BitVec.getLsbD_shiftLeft]
  interval_cases i <;> simp

/-- The reconstruction taken of the two stored bytes, the bottom one first, has the second sample
as its top byte. -/
theorem topByte_bottomByte_topByte (x0 x1 : Byte) :
    topByte (bottomByte x0 x1) (topByte x0 x1) = x1 := by
  apply BitVec.eq_of_getLsbD_eq
  intro i hi
  rw [getLsbD_topByte _ _ hi, getLsbD_topByte _ _ hi]
  split
  · rw [getLsbD_bottomByte _ _ (by omega), if_neg (by omega), Nat.add_sub_cancel]
  · rfl

/-- And the first sample as its bottom byte. -/
theorem bottomByte_bottomByte_topByte (x0 x1 : Byte) :
    bottomByte (bottomByte x0 x1) (topByte x0 x1) = x0 := by
  apply BitVec.eq_of_getLsbD_eq
  intro i hi
  rw [getLsbD_bottomByte _ _ hi, getLsbD_bottomByte _ _ hi]
  split
  · rfl
  · rw [getLsbD_topByte _ _ (by omega), if_pos (by omega), Nat.sub_add_cancel (by omega)]

/-- Settles O27: the pixels are the bits of the two bytes, and the reconstruction with both of its
pairs swapped is its own inverse. -/
theorem pairReconstructionIsABijection : Obligations.PairReconstructionIsABijection := by
  unfold Obligations.PairReconstructionIsABijection
  refine ⟨fun x0 x1 => ⟨rfl, rfl⟩, fun x0 x1 j hj => ⟨?top, ?bottom⟩, ?bijective⟩
  case top =>
    rw [getLsbD_topByte _ _ (by omega)]
    by_cases h : j < 4
    · rw [if_neg (by omega), if_pos h]
    · rw [if_pos (by omega), if_neg h, show 7 - j + 4 = 11 - j by omega]
  case bottom =>
    rw [getLsbD_bottomByte _ _ (by omega)]
    by_cases h : j < 4
    · rw [if_neg (by omega), if_pos h, show 7 - j - 4 = 3 - j by omega]
    · rw [if_pos (by omega), if_neg h]
  case bijective =>
    refine Function.bijective_iff_has_inverse.2
      ⟨fun z => (bottomByte z.2 z.1, topByte z.2 z.1), fun x => ?_, fun z => ?_⟩
    · exact Prod.ext (bottomByte_bottomByte_topByte _ _) (topByte_bottomByte_topByte _ _)
    · exact Prod.ext (topByte_bottomByte_topByte _ _) (bottomByte_bottomByte_topByte _ _)

/-! ## The placement of a row (R147, R150) -/

/-- The row of a pass that is placed at row `r` of each half: the inverse of `dstRow` (R149). -/
def srcRow (r : Nat) : Nat := (r + Config.halfH - 1) % Config.halfH

theorem srcRow_lt (r : Nat) : srcRow r < Config.halfH := Nat.mod_lt _ (by decide)

theorem dstRow_srcRow {r : Nat} (hr : r < Config.halfH) : dstRow (srcRow r) = r := by
  simp only [dstRow, srcRow, Config.halfH] at *
  omega

theorem srcRow_dstRow {y : Nat} (hy : y < Config.halfH) : srcRow (dstRow y) = y := by
  simp only [dstRow, srcRow, Config.halfH] at *
  omega

/-- Settles O28, by the inverse of the placement. -/
theorem rowPlacementIsAPermutation : Obligations.RowPlacementIsAPermutation := by
  unfold Obligations.RowPlacementIsAPermutation
  have inverse : Set.InvOn srcRow dstRow (Set.Iio 200) (Set.Iio 200) :=
    ⟨fun _ hy => srcRow_dstRow hy, fun _ hr => dstRow_srcRow hr⟩
  exact inverse.bijOn (fun y _ => dstRow_lt y) (fun r _ => srcRow_lt r)

end Sys2Proof.Machine

/-! # The rows of a pass (R141 to R148, R161, R163) -/

namespace Sys2Proof.Machine

variable {s : State}

/-! ## The frame-sync waits (R141, R142, R161) -/

theorem exec_dWaitFrameHigh (s : State) :
    exec .dWaitFrameHigh s = s.wait .fsync true State.afterHighDstn := rfl

theorem exec_dWaitFrameLow (s : State) :
    exec .dWaitFrameLow s = s.wait .fsync false State.afterLowDstn := rfl

theorem exec_tWaitFrameHigh (s : State) :
    exec .tWaitFrameHigh s = s.wait .fsync true State.afterHighTft := rfl

/-- Both outcomes of a poll, in one equation. -/
theorem State.wait_eq (s : State) (sig : Signal) (lvl : Bool) (k : State → State) :
    s.wait sig lvl k = .next (if s.level sig = lvl then k s else s) := rfl

/-- Settles O22: each is one poll of the frame sync, and goes on as its rule says. -/
theorem frameSyncWaitResult : Obligations.FrameSyncWaitResult := by
  unfold Obligations.FrameSyncWaitResult
  intro s
  rw [exec_dWaitFrameHigh, exec_dWaitFrameLow, exec_tWaitFrameHigh, State.wait_eq, State.wait_eq,
    State.wait_eq]
  exact ⟨rfl, rfl, rfl⟩

/-! ## The delivered samples (R143 to R147) -/

/-- Settles O23: the lead sample is read and counted, and the last one starts row capture. -/
theorem discardLeadResult : Obligations.DiscardLeadResult := by
  unfold Obligations.DiscardLeadResult
  intro s hg
  rw [exec_dDiscardLead, State.gated_read hg]
  rfl

/-- Settles O24: the sample is read and kept as the first of its pair. -/
theorem rowCaptureFirstSampleResult : Obligations.RowCaptureFirstSampleResult := by
  unfold Obligations.RowCaptureFirstSampleResult
  intro s hg
  rw [exec_dRowCaptureS0, State.gated_read hg]
  rfl

/-- Settles O25: the sample is read, and the pair it completes is stored and passed. -/
theorem rowCaptureSecondSampleResult : Obligations.RowCaptureSecondSampleResult := by
  unfold Obligations.RowCaptureSecondSampleResult
  rintro s b top bottom hg hc rfl rfl rfl
  obtain ⟨t, ht, htop, hbot, hother, hslot, hframe⟩ :=
    State.takeS1_result (s := s.takeSample) s.busByte hc
  refine ⟨t, ?_, htop, hbot, hother, hslot, hframe⟩
  rw [exec_dRowCaptureS1, State.gated_read hg, ht, Result.ofExcept_ok]

/-! ## The end of a pass (R148, R163) -/

/-- Settles O31: either row hands the frame to the assembler. -/
theorem doneGoesToTheAssembler : Obligations.DoneGoesToTheAssembler := by
  unfold Obligations.DoneGoesToTheAssembler
  exact fun s => ⟨rfl, rfl⟩

end Sys2Proof.Machine

/-! # RawFrame as a function of the sample stream (R79, R128, R149, R152, R164) -/

namespace Sys2Proof.Machine

variable {s t : State}

/-! ## Samples of a stream that grows -/

theorem sampleAt_append_of_lt {S : List Byte} {n : Nat} (h : n < S.length) (b : Byte) :
    sampleAt (S ++ [b]) n = sampleAt S n :=
  List.getD_append S [b] 0#8 n h

theorem sampleAt_append_length (S : List Byte) (b : Byte) : sampleAt (S ++ [b]) S.length = b := by
  simp [sampleAt]

/-! ## The place of a pair (R145, R147, R149) -/

/-- Pair `k = y*80 + col` is the pair at row `y`, column `col`. -/
theorem pairIndex_div_mod {y col : Nat} (hc : col < Config.bytesPerRow) :
    (y * Config.bytesPerRow + col) / Config.bytesPerRow = y ∧
    (y * Config.bytesPerRow + col) % Config.bytesPerRow = col := by
  simp only [Config.bytesPerRow] at *
  omega

/-- Distinct pairs of a pass have distinct places. -/
theorem topOffset_inj {y col y' col' : Nat} (hy : y < Config.halfH) (hy' : y' < Config.halfH)
    (hc : col < Config.bytesPerRow) (hc' : col' < Config.bytesPerRow)
    (h : topOffset y col = topOffset y' col') : y = y' ∧ col = col' := by
  have hrow : dstRow y = dstRow y' := by
    rw [← (pairIndex_div_mod (y := dstRow y) hc).1, ← (pairIndex_div_mod (y := dstRow y') hc').1]
    exact congrArg (· / Config.bytesPerRow) h
  have hcol : col = col' := by
    rw [← (pairIndex_div_mod (y := dstRow y) hc).2, ← (pairIndex_div_mod (y := dstRow y') hc').2]
    exact congrArg (· % Config.bytesPerRow) h
  exact ⟨by rw [← srcRow_dstRow hy, hrow, srcRow_dstRow hy'], hcol⟩

/-- The pair that row `r` of a half, column `c`, is reconstructed from (R149). -/
theorem pairStart_eq (D r c : Nat) :
    pairStart D r c = D + 2 * (srcRow r * Config.bytesPerRow + c) := rfl

/-! ## CaptureData, control state by control state -/

theorem State.captureData_discardLead (hc : s.capState = .discardLead) :
    s.CaptureData ↔ s.stream.length = s.dCnt := by
  rw [State.CaptureData, hc]

/-- The pairs stored so far, at the present position of a row capture. -/
def State.pairIndex (s : State) : Nat := s.y * Config.bytesPerRow + s.col

theorem State.captureData_rowCapture (hc : s.capState = .rowCapture) :
    s.CaptureData ↔
      s.stream.length = s.par.dstnLeadDiscard + 2 * s.pairIndex + (if s.phase then 1 else 0) ∧
      (s.phase = true → s.s0 = sampleAt s.stream (s.par.dstnLeadDiscard + 2 * s.pairIndex)) ∧
      s.PairsStored s.pairIndex := by
  rw [State.CaptureData, hc]
  rfl

theorem State.captureData_seqCapture (hc : s.capState = .seqCapture) :
    s.CaptureData ↔ s.stream.length = s.i ∧ ∀ n < s.i, s.rawByte n = sampleAt s.stream n := by
  rw [State.CaptureData, hc]

/-- The control states after a complete pass, up to the publish. -/
def passComplete : CapState → Bool
  | .done => true
  | .asmSelect => true
  | .asmZero => true
  | .asmCopy => true
  | .asmPublish => true
  | _ => false

theorem State.captureData_passComplete (hc : passComplete s.capState = true) :
    s.CaptureData ↔ s.FrameComplete := by
  unfold State.CaptureData
  cases h : s.capState with
  | done | asmSelect | asmZero | asmCopy | asmPublish => exact Iff.rfl
  | _ =>
    rw [h] at hc
    cases hc

/-! ## The start of a pass -/

theorem State.startRows_captureData (hlen : s.stream.length = s.par.dstnLeadDiscard) :
    s.startRows.CaptureData := by
  refine (State.captureData_rowCapture rfl).2 ⟨?length, nofun, fun k hk => ?stored⟩
  case length => exact hlen
  case stored => exact absurd hk (Nat.not_lt_zero k)

theorem State.afterLowDstn_captureData (s : State) : s.afterLowDstn.CaptureData := by
  unfold State.afterLowDstn
  dsimp only
  split
  · exact (State.captureData_discardLead rfl).2 rfl
  · rename_i hlead
    exact State.startRows_captureData (Nat.eq_zero_of_not_pos hlead).symm

theorem State.afterHighTft_captureData (s : State) : s.afterHighTft.CaptureData :=
  (State.captureData_seqCapture rfl).2 ⟨rfl, nofun⟩

/-! ## A lead sample (R143) -/

theorem State.discardLead_captureData (hc : s.capState = .discardLead)
    (hlen : s.stream.length = s.dCnt + 1) : s.discardLead.CaptureData := by
  unfold State.discardLead
  dsimp only
  split
  · rename_i hlast
    exact State.startRows_captureData (hlen.trans hlast)
  · exact (State.captureData_discardLead (s := { s with dCnt := s.dCnt + 1 }) hc).2 hlen

/-! ## The samples of a pair (R144 to R147) -/

/-- The pairs stored stay stored when the stream grows past their samples. -/
theorem State.PairsStored.of_append {n : Nat} {b : Byte} (h : s.PairsStored n)
    (hlen : s.par.dstnLeadDiscard + 2 * n ≤ s.stream.length) (hpar : t.par = s.par)
    (hstream : t.stream = s.stream ++ [b])
    (hraw : ∀ k < n,
      t.rawByte (topOffset (k / Config.bytesPerRow) (k % Config.bytesPerRow)) =
        s.rawByte (topOffset (k / Config.bytesPerRow) (k % Config.bytesPerRow)) ∧
      t.rawByte (bottomOffset (k / Config.bytesPerRow) (k % Config.bytesPerRow)) =
        s.rawByte (bottomOffset (k / Config.bytesPerRow) (k % Config.bytesPerRow))) :
    t.PairsStored n := by
  intro k hk
  obtain ⟨htop, hbot⟩ := h k hk
  obtain ⟨hrawTop, hrawBot⟩ := hraw k hk
  rw [hrawTop, hrawBot, htop, hbot, hpar, hstream, sampleAt_append_of_lt (by omega),
    sampleAt_append_of_lt (by omega)]
  exact ⟨rfl, rfl⟩

theorem State.takeS0_captureData (hc : s.capState = .rowCapture) (hph : s.phase = false)
    (h : s.CaptureData) : (s.takeSample.takeS0 s.busByte).CaptureData := by
  obtain ⟨hlen, -, hpairs⟩ := (State.captureData_rowCapture hc).1 h
  replace hlen : s.stream.length = s.par.dstnLeadDiscard + 2 * s.pairIndex := by
    rw [hlen, hph]
    rfl
  refine (State.captureData_rowCapture (s := s.takeSample.takeS0 s.busByte) hc).2
    ⟨?length, fun _ => ?first, ?stored⟩
  case length =>
    exact List.length_append.trans (congrArg (· + 1) hlen)
  case first =>
    have hb := sampleAt_append_length s.stream s.busByte
    rw [hlen] at hb
    exact hb.symm
  case stored => exact hpairs.of_append hlen.ge rfl rfl fun k _ => ⟨rfl, rfl⟩

theorem State.rawByte_pairStored (s : State) (a : Nat) :
    s.pairStored.rawByte a =
      if a = bottomOffset s.y s.col then bottomByte s.s0 s.busByte
      else if a = topOffset s.y s.col then topByte s.s0 s.busByte else s.rawByte a := by
  rw [State.pairStored, State.rawByte_setRaw, State.rawByte_setRaw]
  rfl

/-- The two bytes of another pair of the pass are not written. -/
theorem State.rawByte_pairStored_of_ne (s : State) {y col : Nat} (hy : y < Config.halfH)
    (hc : col < Config.bytesPerRow) (hsy : s.y < Config.halfH) (hsc : s.col < Config.bytesPerRow)
    (hne : ¬ (y = s.y ∧ col = s.col)) :
    s.pairStored.rawByte (topOffset y col) = s.rawByte (topOffset y col) ∧
    s.pairStored.rawByte (bottomOffset y col) = s.rawByte (bottomOffset y col) := by
  have htop := topOffset_lt (y := y) hc
  have hstop := topOffset_lt (y := s.y) hsc
  have apart : topOffset y col ≠ topOffset s.y s.col := fun h =>
    hne (topOffset_inj hy hsy hc hsc h)
  rw [State.rawByte_pairStored, State.rawByte_pairStored, bottomOffset_eq, bottomOffset_eq]
  exact ⟨by rw [if_neg (by omega), if_neg apart], by rw [if_neg (by omega), if_neg (by omega)]⟩

/-- The second sample of a pair stores it: one more pair of the pass stands in RawFrame. -/
theorem State.pairStored_pairsStored (hy : s.y < Config.halfH) (hcol : s.col < Config.bytesPerRow)
    (hlen : s.stream.length = s.par.dstnLeadDiscard + 2 * s.pairIndex + 1)
    (hs0 : s.s0 = sampleAt s.stream (s.par.dstnLeadDiscard + 2 * s.pairIndex))
    (hpairs : s.PairsStored s.pairIndex) : s.pairStored.PairsStored (s.pairIndex + 1) := by
  obtain ⟨hdiv, hmod⟩ := pairIndex_div_mod (y := s.y) hcol
  have hbound : s.pairIndex < Config.bytesPerRow * Config.halfH := by
    simp only [State.pairIndex, Config.halfH, Config.bytesPerRow] at *
    omega
  have hold : s.pairStored.PairsStored s.pairIndex := by
    refine hpairs.of_append (by omega) rfl rfl fun k hk => ?_
    refine s.rawByte_pairStored_of_ne (Nat.div_lt_of_lt_mul (by omega))
      (Nat.mod_lt _ (by decide)) hy hcol fun ⟨hrow, hc⟩ => ?_
    have hk' := Nat.div_add_mod k Config.bytesPerRow
    rw [hrow, hc, Nat.mul_comm] at hk'
    exact absurd hk' hk.ne'
  intro k hk
  rcases Nat.lt_succ_iff_lt_or_eq.1 hk with hk | rfl
  · exact hold k hk
  · have hfirst : sampleAt s.pairStored.stream (s.par.dstnLeadDiscard + 2 * s.pairIndex) = s.s0 :=
      (sampleAt_append_of_lt (by omega) _).trans hs0.symm
    have hsecond : sampleAt s.pairStored.stream (s.par.dstnLeadDiscard + 2 * s.pairIndex + 1) =
        s.busByte := hlen ▸ sampleAt_append_length s.stream s.busByte
    have hpar : s.pairStored.par = s.par := rfl
    have apart : topOffset s.y s.col ≠ bottomOffset s.y s.col := by
      rw [bottomOffset_eq]
      omega
    rw [hpar, hfirst, hsecond, State.pairIndex, hdiv, hmod, State.rawByte_pairStored,
      State.rawByte_pairStored, if_neg apart, if_pos rfl, if_pos rfl]
    exact ⟨rfl, rfl⟩

/-- With all 16000 pairs of a DSTN pass stored, RawFrame is the closed form of R149. -/
theorem State.PairsStored.frameComplete (hm : s.mode = .dstn)
    (hlen : s.stream.length = s.par.dstnLeadDiscard + Config.dstnSamples)
    (h : s.PairsStored (Config.halfH * Config.bytesPerRow)) : s.FrameComplete := by
  have half (r c : Nat) (hr : r < Config.halfH) (hc : c < Config.bytesPerRow) :
      s.rawByte (r * Config.bytesPerRow + c) =
        topByte (sampleAt s.stream (pairStart s.par.dstnLeadDiscard r c))
          (sampleAt s.stream (pairStart s.par.dstnLeadDiscard r c + 1)) ∧
      s.rawByte (r * Config.bytesPerRow + c + 16000) =
        bottomByte (sampleAt s.stream (pairStart s.par.dstnLeadDiscard r c))
          (sampleAt s.stream (pairStart s.par.dstnLeadDiscard r c + 1)) := by
    have hk : srcRow r * Config.bytesPerRow + c < Config.halfH * Config.bytesPerRow := by
      have := srcRow_lt r
      simp only [Config.halfH, Config.bytesPerRow] at *
      omega
    obtain ⟨hdiv, hmod⟩ := pairIndex_div_mod (y := srcRow r) hc
    have hplace := h _ hk
    rw [hdiv, hmod, bottomOffset_eq, topOffset, dstRow_srcRow hr] at hplace
    rwa [pairStart_eq]
  refine ⟨by rw [hm]; exact hlen, fun off hoff => ?_⟩
  have hc : off % Config.bytesPerRow < Config.bytesPerRow := Nat.mod_lt _ (by decide)
  have hoffset := Nat.div_add_mod off Config.bytesPerRow
  rw [hm, frameByte, dstnFrameByte]
  split
  · rename_i hr
    rw [← (half _ _ hr hc).1, Nat.mul_comm, hoffset]
  · rename_i hr
    have hr' : off / Config.bytesPerRow - Config.halfH < Config.halfH := by
      simp only [Config.halfH, Config.bytesPerRow, Config.frameBytes] at *
      omega
    rw [← (half _ _ hr' hc).2]
    congr 1
    simp only [Config.halfH, Config.bytesPerRow] at *
    omega

/-- The position passes to the next pair, or the pass is done and the frame complete. -/
theorem State.nextPair_captureData (hc : s.capState = .rowCapture) (hm : s.mode = .dstn)
    (hy : s.y < Config.halfH) (hcol : s.col < Config.bytesPerRow)
    (hlen : s.stream.length = s.par.dstnLeadDiscard + 2 * (s.pairIndex + 1))
    (hpairs : s.PairsStored (s.pairIndex + 1)) : s.nextPair.CaptureData := by
  have atNextPair (u : State) (hu : u.capState = .rowCapture) (hph : u.phase = false)
      (hk : u.pairIndex = s.pairIndex + 1) (hstream : u.stream = s.stream) (hpar : u.par = s.par)
      (hstored : u.PairsStored (s.pairIndex + 1)) : u.CaptureData := by
    refine (State.captureData_rowCapture hu).2 ⟨?_, by rw [hph]; nofun, hk ▸ hstored⟩
    rw [hph, hk, hstream, hpar, hlen]
    rfl
  unfold State.nextPair
  dsimp only
  split
  · exact atNextPair _ hc rfl rfl rfl rfl hpairs
  · rename_i hlast
    have hcol79 : s.col + 1 = Config.bytesPerRow := by omega
    split
    · refine atNextPair _ hc rfl ?_ rfl rfl hpairs
      calc (s.y + 1) * Config.bytesPerRow + 0
        _ = s.y * Config.bytesPerRow + (s.col + 1) := by rw [hcol79, Nat.add_zero, Nat.succ_mul]
        _ = s.pairIndex + 1 := rfl
    · have hall : s.pairIndex + 1 = Config.halfH * Config.bytesPerRow := by
        simp only [State.pairIndex, Config.halfH, Config.bytesPerRow] at *
        omega
      rw [hall] at hlen hpairs
      exact (State.captureData_passComplete rfl).2 (State.PairsStored.frameComplete hm hlen hpairs)

theorem State.Inv.pairStored_captureData (h : s.Inv) (hc : s.capState = .rowCapture)
    (hph : s.phase = true) (hd : s.CaptureData) : s.pairStored.nextPair.CaptureData := by
  obtain ⟨hlen, hs0, hpairs⟩ := (State.captureData_rowCapture hc).1 hd
  rw [hph] at hlen
  refine State.nextPair_captureData (s := s.pairStored) hc (h.mode_dstn (by rw [hc]; rfl)) h.y h.col
    ?length (State.pairStored_pairsStored h.y h.col hlen (hs0 hph) hpairs)
  case length => exact List.length_append.trans (congrArg (· + 1) hlen)

/-! ## A TFT sample (R162, R164) -/

/-- `SEQ_CAPTURE` is met in mode TFT only (R106). -/
theorem State.Inv.mode_tft (h : s.Inv) (hc : s.capState = .seqCapture) : s.mode = .tft := by
  have hp := h.pair
  rw [hc] at hp
  cases hm : s.mode with
  | tft => rfl
  | dstn =>
    rw [hm] at hp
    cases hp

/-- The index passes to the next byte, or the pass is done and the frame complete. -/
theorem State.nextByte_captureData (hc : s.capState = .seqCapture) (hm : s.mode = .tft)
    (hi : s.i < Config.frameBytes) (hlen : s.stream.length = s.i + 1)
    (hraw : ∀ n < s.i + 1, s.rawByte n = sampleAt s.stream n) : s.nextByte.CaptureData := by
  unfold State.nextByte
  split
  · exact (State.captureData_seqCapture (s := { s with i := s.i + 1 }) hc).2 ⟨hlen, hraw⟩
  · have hall : s.i + 1 = Config.frameBytes := by omega
    rw [hall] at hlen hraw
    refine (State.captureData_passComplete rfl).2 ⟨?_, fun off hoff => ?_⟩
    · dsimp only
      rw [hm]
      exact hlen
    · dsimp only
      rw [hm]
      exact hraw off hoff

theorem State.Inv.takeTft_captureData (h : s.Inv) (hc : s.capState = .seqCapture)
    (hd : s.CaptureData) : (s.takeSample.setRaw s.i s.busByte).nextByte.CaptureData := by
  obtain ⟨hlen, hraw⟩ := (State.captureData_seqCapture hc).1 hd
  refine State.nextByte_captureData hc (h.mode_tft hc) h.i
    (List.length_append.trans (congrArg (· + 1) hlen)) fun n hn => ?_
  rw [State.rawByte_setRaw, State.setRaw_stream, State.takeSample_stream]
  split
  · rename_i hni
    rw [hni, ← hlen, sampleAt_append_length]
  · rename_i hni
    have hlt : n < s.i := Nat.lt_of_le_of_ne (Nat.le_of_lt_succ hn) hni
    rw [sampleAt_append_of_lt (hlen ▸ hlt)]
    exact hraw n hlt

/-! ## The steps of the assembly, which leave RawFrame and the stream -/

/-- A complete frame does not depend on what the slots hold. -/
theorem State.FrameComplete.setSlot (h : s.FrameComplete) (k : Fin 2) (off : Nat) (v : Byte) :
    (s.setSlot k off v).FrameComplete := h

theorem State.nextZero_captureData (hc : s.capState = .asmZero) (h : s.FrameComplete) :
    s.nextZero.CaptureData := by
  unfold State.nextZero
  split
  · exact (State.captureData_passComplete (by rw [hc]; rfl)).2 h
  · exact (State.captureData_passComplete rfl).2 h

theorem State.nextCopy_captureData (hc : s.capState = .asmCopy) (h : s.FrameComplete) :
    s.nextCopy.CaptureData := by
  unfold State.nextCopy
  split
  · exact (State.captureData_passComplete (by rw [hc]; rfl)).2 h
  · split
    · exact (State.captureData_passComplete (by rw [hc]; rfl)).2 h
    · exact (State.captureData_passComplete rfl).2 h

/-! ## Every move and every step -/

theorem CapStep.captureData (hst : CapStep s t) (h : s.Inv) (hd : s.CaptureData) :
    t.CaptureData := by
  have complete (hc : passComplete s.capState = true) : s.FrameComplete :=
    (State.captureData_passComplete hc).1 hd
  cases hst with
  | waiting | armed | fired => exact hd
  | boot | highDstn | publish => exact trivial
  | highTft => exact s.afterHighTft_captureData
  | low => exact s.afterLowDstn_captureData
  | lead hc =>
    have hlen := (State.captureData_discardLead hc).1 hd
    exact State.discardLead_captureData (s := s.takeSample) hc
      (List.length_append.trans (congrArg (· + 1) hlen))
  | first hc hph => exact State.takeS0_captureData hc hph hd
  | second hc hph => exact h.pairStored_captureData hc hph hd
  | byte hc => exact h.takeTft_captureData hc hd
  | done hc | select hc =>
    exact (State.captureData_passComplete rfl).2 (complete (by rw [hc]; rfl))
  | zero hc => exact State.nextZero_captureData hc ((complete (by rw [hc]; rfl)).setSlot _ _ _)
  | copy hc => exact State.nextCopy_captureData hc ((complete (by rw [hc]; rfl)).setSlot _ _ _)

theorem FeedStep.captureData (hst : FeedStep s t) (hd : s.CaptureData) : t.CaptureData := by
  rw [hst.frame]
  exact hd

theorem SinkStep.captureData (hst : SinkStep s t) (hd : s.CaptureData) : t.CaptureData := by
  rw [hst.frame]
  exact hd

theorem runMove_keeps_captureData (h : s.Inv) (hd : s.CaptureData) {m : Move}
    (hm : runMove m s = .next t) : t.CaptureData := by
  cases m with
  | cap => exact (capStep_of_runCap hm).2.captureData h hd
  | feed => exact (feedStep_of_runFeed hm).captureData hd
  | sinkTake => exact (sinkStep_of_take hm).captureData hd
  | sinkRelease b => exact (sinkStep_of_release hm).captureData hd
  | busDrive sel levels =>
    cases hm
    exact hd
  | reset =>
    cases hm
    exact trivial

/-- Settles O51: the next step of a good state is a move, and every move keeps what RawFrame holds
of the stream. -/
theorem stepKeepsTheCaptureData : Obligations.StepKeepsTheCaptureData := by
  unfold Obligations.StepKeepsTheCaptureData
  intro s t h hd hst
  obtain ⟨m, rest, k, hinv, hstep⟩ := h.step_eq_runMove
  exact runMove_keeps_captureData hinv hd (hstep.symm.trans hst)

end Sys2Proof.Machine

/-! # The TFT sample (R162) -/

namespace Sys2Proof.Machine

/-- Settles O29: the sample is read, and the byte it delivers is stored and passed. -/
theorem seqCaptureResult : Obligations.SeqCaptureResult := by
  unfold Obligations.SeqCaptureResult
  rintro s b hg hi rfl
  obtain ⟨t, ht, hstored, hother, hslot, hframe⟩ :=
    State.takeTft_result (s := s.takeSample) s.busByte hi
  refine ⟨t, ?_, hstored, hother, hslot, hframe⟩
  rw [exec_tSeqCapture, State.gated_read hg, ht, Result.ofExcept_ok]

end Sys2Proof.Machine

/-! # The rows of the assembler (R171 to R174) -/

namespace Sys2Proof.Machine

variable {s : State}

/-! ## The position after a byte -/

/-- The position after a zeroed byte, field by field. -/
theorem State.nextZero_eq (s : State) :
    s.nextZero =
      { s with
          zo := if s.zo < 95999 then s.zo + 1 else s.zo
          o := if s.zo < 95999 then s.o else 0
          p := if s.zo < 95999 then s.p else 0
          capState := if s.zo < 95999 then s.capState else .asmCopy } := by
  simp only [State.nextZero, Config.slotBytes]
  by_cases hzo : s.zo < 95999 <;> simp [hzo]

/-- The position after a copied byte, field by field. -/
theorem State.nextCopy_eq (s : State) :
    s.nextCopy =
      { s with
          p := if s.p < 2 then s.p + 1 else 0
          o := if s.p < 2 then s.o else if s.o < 31999 then s.o + 1 else s.o
          capState := if s.p < 2 then s.capState else if s.o < 31999 then s.capState
            else .asmPublish } := by
  simp only [State.nextCopy, Config.nPlanes, Config.frameBytes]
  by_cases hp : s.p < 2
  · simp [hp]
  · by_cases ho : s.o < 31999 <;> simp [hp, ho]

theorem State.rawByte_nextZero (s : State) (a : Nat) : s.nextZero.rawByte a = s.rawByte a := by
  rw [State.nextZero_eq]
  rfl

theorem State.slotByte_nextZero (s : State) (k : Fin 2) (a : Nat) :
    s.nextZero.slotByte k a = s.slotByte k a := by
  rw [State.nextZero_eq]
  rfl

theorem State.rawByte_nextCopy (s : State) (a : Nat) : s.nextCopy.rawByte a = s.rawByte a := by
  rw [State.nextCopy_eq]
  rfl

theorem State.slotByte_nextCopy (s : State) (k : Fin 2) (a : Nat) :
    s.nextCopy.slotByte k a = s.slotByte k a := by
  rw [State.nextCopy_eq]
  rfl

/-! ## The states the four rows leave -/

/-- The state `ASM_SELECT` leaves (R171). -/
def State.stagingSelected (s : State) : State :=
  { s with stg := 1 - s.displayPointer, zo := 0, capState := .asmZero }

/-- The state `ASM_ZERO` leaves (R172). -/
def State.byteZeroed (s : State) : State := (s.setSlot s.stg s.zo 0#8).nextZero

/-- The state `ASM_COPY` leaves (R173). -/
def State.byteCopied (s : State) : State :=
  (s.setSlot s.stg (planeOffset s.p s.o) (s.rawByte s.o)).nextCopy

/-- The state `ASM_PUBLISH` leaves (R174). -/
def State.slotPublished (s : State) : State :=
  { s.emit (.pub s.stg) with displayPointer := s.stg, capState := .waitFrameHigh }

theorem State.rawByte_byteZeroed (s : State) (a : Nat) : s.byteZeroed.rawByte a = s.rawByte a := by
  rw [State.byteZeroed, State.rawByte_nextZero, State.rawByte_setSlot]

theorem State.slotByte_byteZeroed (s : State) (k : Fin 2) (a : Nat) :
    s.byteZeroed.slotByte k a = if k = s.stg ∧ a = s.zo then 0#8 else s.slotByte k a := by
  rw [State.byteZeroed, State.slotByte_nextZero, State.slotByte_setSlot]

theorem State.rawByte_byteCopied (s : State) (a : Nat) : s.byteCopied.rawByte a = s.rawByte a := by
  rw [State.byteCopied, State.rawByte_nextCopy, State.rawByte_setSlot]

theorem State.slotByte_byteCopied (s : State) (k : Fin 2) (a : Nat) :
    s.byteCopied.slotByte k a =
      if k = s.stg ∧ a = planeOffset s.p s.o then s.rawByte s.o else s.slotByte k a := by
  rw [State.byteCopied, State.slotByte_nextCopy, State.slotByte_setSlot]

/-- The destination of a copied byte lies inside the slot (R63, R68). -/
theorem planeOffset_lt_slotBytes {p off : Nat} (hp : p < Config.nPlanes)
    (hoff : off < Config.frameBytes) : planeOffset p off < Config.slotBytes := by
  simp only [planeOffset, Config.nPlanes, Config.frameBytes, Config.slotBytes] at *
  omega

theorem runCap_asmSelect (hc : s.capState = .asmSelect) : runCap s = .next s.stagingSelected := by
  rw [runCap_eq (by rw [hc]; rfl), hc]
  rfl

theorem runCap_asmZero (hc : s.capState = .asmZero) (hzo : s.zo < Config.slotBytes) :
    runCap s = .next s.byteZeroed := by
  rw [runCap_eq (by rw [hc]; rfl), hc]
  exact execAsmZero_of_lt hzo

theorem runCap_asmCopy (hc : s.capState = .asmCopy) (ho : s.o < Config.frameBytes)
    (hp : s.p < Config.nPlanes) : runCap s = .next s.byteCopied := by
  rw [runCap_eq (by rw [hc]; rfl), hc]
  exact execAsmCopy_of_lt ho (planeOffset_lt_slotBytes hp ho)

theorem runCap_asmPublish (hc : s.capState = .asmPublish) :
    runCap s = .next s.slotPublished := by
  rw [runCap_eq (by rw [hc]; rfl), hc]
  rfl

/-! ## The statements -/

/-- Settles O32. -/
theorem asmSelectResult : Obligations.AsmSelectResult := by
  unfold Obligations.AsmSelectResult
  exact fun s => rfl

/-- Settles O33: one byte of the staging slot is stored, and the position moves on. -/
theorem asmZeroResult : Obligations.AsmZeroResult := by
  unfold Obligations.AsmZeroResult
  intro s hzo
  refine ⟨s.byteZeroed, execAsmZero_of_lt hzo, ?zeroed, fun k a hka => ?other,
    s.rawByte_byteZeroed, ?frame⟩
  case zeroed => rw [State.slotByte_byteZeroed, if_pos ⟨rfl, rfl⟩]
  case other => rw [State.slotByte_byteZeroed, if_neg (not_and_or.2 hka)]
  case frame =>
    rw [State.byteZeroed, State.nextZero_eq]
    rfl

/-- Settles O34: one byte of RawFrame is stored in the staging slot, and the position moves on. -/
theorem asmCopyResult : Obligations.AsmCopyResult := by
  unfold Obligations.AsmCopyResult
  rintro s dst ho hp rfl
  refine ⟨s.byteCopied, execAsmCopy_of_lt ho (planeOffset_lt_slotBytes hp ho), ?copied,
    fun k a hka => ?other, s.rawByte_byteCopied, ?frame⟩
  case copied => exact (s.slotByte_byteCopied _ _).trans (if_pos ⟨rfl, rfl⟩)
  case other => exact (s.slotByte_byteCopied k a).trans (if_neg (not_and_or.2 hka))
  case frame =>
    rw [State.byteCopied, State.nextCopy_eq]
    rfl

end Sys2Proof.Machine

/-! # Who writes the slots and the pointer (R174, R176, R178, R220)

CAP alone, and only in the three states of the assembly that follow its selection: a byte of the
staging slot in `ASM_ZERO` and `ASM_COPY`, the pointer in `ASM_PUBLISH`. -/

namespace Sys2Proof.Machine

variable {s t : State}

/-- How often a slot has been published since reset. -/
def State.publishes (s : State) : Nat := s.trace.countP Event.isPub

/-- The slots and the published one of them are as they were. -/
structure DisplayKept (s t : State) : Prop where
  slot0 : t.slot0 = s.slot0
  slot1 : t.slot1 = s.slot1
  epoch : t.epoch = s.epoch
  pointer : t.displayPointer = s.displayPointer
  publishes : t.publishes = s.publishes

theorem DisplayKept.slotByte (h : DisplayKept s t) (k : Fin 2) (a : Nat) :
    t.slotByte k a = s.slotByte k a :=
  State.slotByte_congr h.slot0 h.slot1 h.epoch k a

/-- A step of CAP keeps the slots and the pointer, or is one of the three that write them. -/
theorem CapStep.display_cases (h : CapStep s t) :
    DisplayKept s t ∨
    (s.capState = .asmZero ∧ t = s.byteZeroed) ∨
    (s.capState = .asmCopy ∧ t = s.byteCopied) ∨
    (s.capState = .asmPublish ∧ t = s.slotPublished) := by
  cases h with
  | waiting | armed | fired | first | highDstn | highTft | done | select =>
    exact .inl ⟨rfl, rfl, rfl, rfl, rfl⟩
  | boot =>
    rw [State.booted, State.latchStrap_eq]
    exact .inl ⟨rfl, rfl, rfl, rfl, rfl⟩
  | low =>
    unfold State.afterLowDstn
    dsimp only
    split <;> exact .inl ⟨rfl, rfl, rfl, rfl, rfl⟩
  | lead =>
    unfold State.discardLead
    dsimp only
    split <;> exact .inl ⟨rfl, rfl, rfl, rfl, rfl⟩
  | second =>
    rw [State.nextPair_eq]
    exact .inl ⟨rfl, rfl, rfl, rfl, rfl⟩
  | byte =>
    rw [State.nextByte_eq]
    exact .inl ⟨rfl, rfl, rfl, rfl, rfl⟩
  | zero hc => exact .inr (.inl ⟨hc, rfl⟩)
  | copy hc => exact .inr (.inr (.inl ⟨hc, rfl⟩))
  | publish hc => exact .inr (.inr (.inr ⟨hc, rfl⟩))

theorem State.publishes_append {e : Event} (he : e.isPub = false) (htr : t.trace = s.trace ++ [e]) :
    t.publishes = s.publishes := by
  simp [State.publishes, htr, he]

/-- No event of FEED is a publish. -/
theorem FeedStep.publishes (h : FeedStep s t) : t.publishes = s.publishes := by
  cases h with
  | blocked | readPtr | collect | advance => rfl
  | @acquire b rest =>
    rw [State.acquired_frame]
    exact State.publishes_append (e := .acq b) rfl rfl
  | @encode b _ hc hb =>
    rw [State.nextChannel_frame]
    exact State.publishes_append (e := .enc b s.fch ((s.collected hc hb).sliceOf s.fch)) rfl rfl
  | @submit b => exact State.publishes_append (e := .sub b) rfl rfl

theorem FeedStep.displayKept (h : FeedStep s t) : DisplayKept s t := by
  have hpub := h.publishes
  rw [h.frame] at hpub ⊢
  exact ⟨rfl, rfl, rfl, rfl, hpub⟩

theorem SinkStep.displayKept (h : SinkStep s t) : DisplayKept s t := by
  rw [h.frame]
  exact ⟨rfl, rfl, rfl, rfl, rfl⟩

/-- Every move but those of CAP and RESET keeps the slots and the pointer. -/
theorem runMove_displayKept {m : Move} (hcap : m ≠ .cap) (hreset : m ≠ .reset)
    (h : runMove m s = .next t) : DisplayKept s t := by
  cases m with
  | cap => exact absurd rfl hcap
  | feed => exact (feedStep_of_runFeed h).displayKept
  | sinkTake => exact (sinkStep_of_take h).displayKept
  | sinkRelease b => exact (sinkStep_of_release h).displayKept
  | busDrive sel levels =>
    cases h
    exact ⟨rfl, rfl, rfl, rfl, rfl⟩
  | reset => exact absurd rfl hreset

/-- `ASM_ZERO` publishes nothing and goes on with its slot. -/
theorem State.byteZeroed_kept (s : State) :
    s.byteZeroed.stg = s.stg ∧ s.byteZeroed.displayPointer = s.displayPointer ∧
    s.byteZeroed.trace = s.trace := by
  rw [State.byteZeroed, State.nextZero_eq]
  exact ⟨rfl, rfl, rfl⟩

/-- `ASM_COPY` publishes nothing and goes on with its slot. -/
theorem State.byteCopied_kept (s : State) :
    s.byteCopied.stg = s.stg ∧ s.byteCopied.displayPointer = s.displayPointer ∧
    s.byteCopied.trace = s.trace := by
  rw [State.byteCopied, State.nextCopy_eq]
  exact ⟨rfl, rfl, rfl⟩

/-- A step of CAP that is not `ASM_PUBLISH` publishes nothing. -/
theorem CapStep.pointer (h : CapStep s t) (hp : s.capState ≠ .asmPublish) :
    t.displayPointer = s.displayPointer ∧ t.publishes = s.publishes := by
  rcases h.display_cases with hk | ⟨-, rfl⟩ | ⟨-, rfl⟩ | ⟨hc, -⟩
  · exact ⟨hk.pointer, hk.publishes⟩
  · obtain ⟨-, hptr, htrace⟩ := s.byteZeroed_kept
    exact ⟨hptr, congrArg (List.countP _) htrace⟩
  · obtain ⟨-, hptr, htrace⟩ := s.byteCopied_kept
    exact ⟨hptr, congrArg (List.countP _) htrace⟩
  · exact absurd hc hp

/-- CAP writes no slot but, while it assembles, the staging one. -/
theorem CapStep.slotByte (h : CapStep s t) {k : Fin 2}
    (hk : assembling s.capState = true → k ≠ s.stg) (a : Nat) :
    t.slotByte k a = s.slotByte k a := by
  rcases h.display_cases with hd | ⟨hc, rfl⟩ | ⟨hc, rfl⟩ | ⟨-, rfl⟩
  · exact hd.slotByte k a
  · have hne : k ≠ s.stg := hk (by rw [hc]; rfl)
    rw [State.slotByte_byteZeroed, if_neg fun hka => hne hka.1]
  · have hne : k ≠ s.stg := hk (by rw [hc]; rfl)
    rw [State.slotByte_byteCopied, if_neg fun hka => hne hka.1]
  · rfl

theorem other_slot_ne (k : Fin 2) : k ≠ 1 - k := by
  revert k
  decide

/-- In a good state the slot CAP writes is not the published one (R176). -/
theorem State.Inv.published_ne_staging (h : s.Inv) (ha : assembling s.capState = true) :
    s.displayPointer ≠ s.stg :=
  h.staging ha ▸ other_slot_ne s.displayPointer

/-- Settles O35: the row by its definition, and no other move writes the pointer. -/
theorem asmPublishResult : Obligations.AsmPublishResult := by
  unfold Obligations.AsmPublishResult
  refine ⟨fun s => rfl, fun s t m hreset h => ?_⟩
  by_cases hcap : m = .cap
  · subst hcap
    by_cases hp : s.capState = .asmPublish
    · exact .inr ⟨rfl, hp⟩
    · exact .inl ((capStep_of_runCap h).2.pointer hp).1
  · exact .inl (runMove_displayKept hcap hreset h).pointer

/-- Settles O46: what CAP writes is the staging slot, which is the other one, and the publish shows
that slot. -/
theorem publishedSlotIsNotWritten : Obligations.PublishedSlotIsNotWritten := by
  unfold Obligations.PublishedSlotIsNotWritten
  intro s t h hrun
  have hst : CapStep s t := (capStep_of_runCap hrun).2
  refine ⟨hst.slotByte h.published_ne_staging, ?_⟩
  split
  · rename_i hc
    cases (runCap_asmPublish hc).symm.trans hrun
    exact h.staging (by rw [hc]; rfl)
  · rename_i hc
    exact (hst.pointer hc).1

end Sys2Proof.Machine

/-! # The staging slot, byte by byte (R172, R173, R175) -/

namespace Sys2Proof.Machine

variable {s t : State}

/-! ## The order of the copies -/

/-- Byte `m` of the copy, planes inner and offsets outer, is plane `m % 3` of offset `m / 3`. -/
theorem copyIndex_div_mod {o p : Nat} (hp : p < Config.nPlanes) :
    (3 * o + p) / 3 = o ∧ (3 * o + p) % 3 = p := by
  simp only [Config.nPlanes] at hp
  omega

/-- Distinct bytes of the copy have distinct places. -/
theorem planeOffset_inj {p off p' off' : Nat} (hoff : off < Config.frameBytes)
    (hoff' : off' < Config.frameBytes) (h : planeOffset p off = planeOffset p' off') :
    p = p' ∧ off = off' := by
  simp only [planeOffset, Config.frameBytes] at *
  omega

/-! ## AssemblyData, control state by control state -/

/-- The first `n` bytes of the staging slot are 0 (R172). -/
def State.Zeroed (s : State) (n : Nat) : Prop := ∀ off < n, s.slotByte s.stg off = 0#8

/-- The first `n` bytes in the order of the copy are those of RawFrame, the rest 0 (R173). -/
def State.Copied (s : State) (n : Nat) : Prop :=
  ∀ m < Config.slotBytes, s.slotByte s.stg (planeOffset (m % 3) (m / 3)) =
    if m < n then s.rawByte (m / 3) else 0#8

/-- Each plane of the staging slot is RawFrame (R175). -/
def State.Replicated (s : State) : Prop :=
  ∀ p < Config.nPlanes, ∀ off < Config.frameBytes,
    s.slotByte s.stg (planeOffset p off) = s.rawByte off

theorem State.assemblyData_asmZero (hc : s.capState = .asmZero) :
    s.AssemblyData ↔ s.Zeroed s.zo := by
  rw [State.AssemblyData, hc]
  rfl

theorem State.assemblyData_asmCopy (hc : s.capState = .asmCopy) :
    s.AssemblyData ↔ s.Copied (3 * s.o + s.p) := by
  rw [State.AssemblyData, hc]
  rfl

theorem State.assemblyData_asmPublish (hc : s.capState = .asmPublish) :
    s.AssemblyData ↔ s.Replicated := by
  rw [State.AssemblyData, hc]
  rfl

theorem State.assemblyData_of_not_assembling (ha : assembling s.capState = false) :
    s.AssemblyData := by
  unfold State.AssemblyData
  cases hc : s.capState with
  | asmZero | asmCopy | asmPublish =>
    rw [hc] at ha
    cases ha
  | _ => trivial

/-! ## One byte more -/

theorem State.Zeroed.setSlot {n : Nat} (h : s.Zeroed n) :
    (s.setSlot s.stg n 0#8).Zeroed (n + 1) := by
  intro off hoff
  rw [State.setSlot_stg, State.slotByte_setSlot]
  split
  · rfl
  · rename_i hne
    have hlt : off < n := Nat.lt_of_le_of_ne (Nat.le_of_lt_succ hoff) fun e => hne ⟨rfl, e⟩
    exact h off hlt

/-- A slot zeroed whole is where the copy begins. -/
theorem State.Zeroed.copied (h : s.Zeroed Config.slotBytes) : s.Copied 0 := by
  intro m hm
  have hlt : planeOffset (m % 3) (m / 3) < Config.slotBytes :=
    planeOffset_lt_slotBytes (Nat.mod_lt _ (by decide)) (Nat.div_lt_of_lt_mul hm)
  rw [if_neg (Nat.not_lt_zero m)]
  exact h _ hlt

theorem State.Copied.setSlot {o p : Nat} (h : s.Copied (3 * o + p)) (ho : o < Config.frameBytes)
    (hp : p < Config.nPlanes) :
    (s.setSlot s.stg (planeOffset p o) (s.rawByte o)).Copied (3 * o + p + 1) := by
  intro m hm
  rw [State.setSlot_stg, State.slotByte_setSlot, State.rawByte_setSlot]
  by_cases hmo : m = 3 * o + p
  · obtain ⟨hdiv, hmod⟩ := copyIndex_div_mod (o := o) hp
    rw [hmo, hdiv, hmod, if_pos ⟨rfl, rfl⟩, if_pos (Nat.lt_succ_self _)]
  · have hne : ¬ planeOffset (m % 3) (m / 3) = planeOffset p o := fun e => by
      obtain ⟨hmod, hdiv⟩ := planeOffset_inj (Nat.div_lt_of_lt_mul hm) ho e
      omega
    rw [if_neg fun e => hne e.2, h m hm]
    exact if_congr (by omega) rfl rfl

/-- A slot copied whole holds RawFrame three times. -/
theorem State.Copied.replicated (h : s.Copied Config.slotBytes) : s.Replicated := by
  intro p hp off hoff
  have hm : 3 * off + p < Config.slotBytes := by
    simp only [Config.nPlanes, Config.frameBytes, Config.slotBytes] at *
    omega
  obtain ⟨hdiv, hmod⟩ := copyIndex_div_mod (o := off) hp
  have hbyte := h (3 * off + p) hm
  rwa [hdiv, hmod, if_pos hm] at hbyte

/-! ## The steps of CAP -/

theorem State.byteZeroed_assemblyData (hc : s.capState = .asmZero) (hzo : s.zo < Config.slotBytes)
    (h : s.AssemblyData) : s.byteZeroed.AssemblyData := by
  have hset := ((State.assemblyData_asmZero hc).1 h).setSlot
  unfold State.byteZeroed State.nextZero
  split
  · refine (State.assemblyData_asmZero ?_).2 hset
    exact hc
  · rename_i hlast
    have hall : s.zo = Config.slotBytes - 1 :=
      Nat.le_antisymm (Nat.le_pred_of_lt hzo) (Nat.le_of_not_lt hlast)
    rw [hall] at hset ⊢
    exact (State.assemblyData_asmCopy rfl).2 hset.copied

theorem State.byteCopied_assemblyData (hc : s.capState = .asmCopy) (ho : s.o < Config.frameBytes)
    (hp : s.p < Config.nPlanes) (h : s.AssemblyData) : s.byteCopied.AssemblyData := by
  have hset := ((State.assemblyData_asmCopy hc).1 h).setSlot ho hp
  unfold State.byteCopied State.nextCopy
  split
  · refine (State.assemblyData_asmCopy ?_).2 hset
    exact hc
  · rename_i hlastPlane
    have hplane : s.p = Config.nPlanes - 1 :=
      Nat.le_antisymm (Nat.le_pred_of_lt hp) (Nat.le_of_not_lt hlastPlane)
    rw [hplane] at hset ⊢
    split
    · refine (State.assemblyData_asmCopy ?_).2 hset
      exact hc
    · rename_i hlast
      have hall : s.o = Config.frameBytes - 1 :=
        Nat.le_antisymm (Nat.le_pred_of_lt ho) (Nat.le_of_not_lt hlast)
      rw [hall] at hset ⊢
      exact (State.assemblyData_asmPublish rfl).2 hset.replicated

/-- The assembly begins with `ASM_SELECT` alone. -/
theorem CapStep.not_assembling (h : CapStep s t) (ha : assembling s.capState = false)
    (hs : s.capState ≠ .asmSelect) : assembling t.capState = false := by
  cases h with
  | waiting | armed | fired | first => exact ha
  | boot | highDstn | highTft | done => rfl
  | low =>
    unfold State.afterLowDstn
    dsimp only
    split <;> rfl
  | lead =>
    unfold State.discardLead
    dsimp only
    split
    · rfl
    · exact ha
  | second =>
    unfold State.nextPair
    dsimp only
    split
    · exact ha
    · split
      · exact ha
      · rfl
  | byte =>
    unfold State.nextByte
    split
    · exact ha
    · rfl
  | select hc => exact absurd hc hs
  | zero hc | copy hc | publish hc =>
    rw [hc] at ha
    cases ha

theorem State.stagingSelected_assemblyData (s : State) : s.stagingSelected.AssemblyData :=
  (State.assemblyData_asmZero rfl).2 fun off hoff => absurd hoff (Nat.not_lt_zero off)

/-- A copied byte inside the slot is one of a plane. -/
theorem plane_lt_of_planeOffset_lt {p off : Nat} (h : planeOffset p off < Config.slotBytes) :
    p < Config.nPlanes := by
  simp only [planeOffset, Config.nPlanes, Config.frameBytes, Config.slotBytes] at *
  omega

theorem CapStep.assemblyData (hst : CapStep s t) (hd : s.AssemblyData) : t.AssemblyData := by
  have hkept := hst.not_assembling
  cases hst with
  | waiting | armed | fired | first => exact hd
  | select => exact s.stagingSelected_assemblyData
  | zero hc hzo => exact State.byteZeroed_assemblyData hc hzo hd
  | copy hc ho hpo => exact State.byteCopied_assemblyData hc ho (plane_lt_of_planeOffset_lt hpo) hd
  | publish => exact trivial
  | _ hc =>
    rw [hc] at hkept
    exact State.assemblyData_of_not_assembling (hkept rfl nofun)

/-! ## Every move and every step -/

theorem runMove_keeps_assemblyData (hd : s.AssemblyData) {m : Move} (hm : runMove m s = .next t) :
    t.AssemblyData := by
  cases m with
  | cap => exact (capStep_of_runCap hm).2.assemblyData hd
  | feed =>
    rw [(feedStep_of_runFeed hm).frame]
    exact hd
  | sinkTake =>
    rw [(sinkStep_of_take hm).frame]
    exact hd
  | sinkRelease b =>
    rw [(sinkStep_of_release hm).frame]
    exact hd
  | busDrive sel levels =>
    cases hm
    exact hd
  | reset =>
    cases hm
    exact trivial

/-- Settles O52: the next step of a good state is a move, and every move keeps what the staging slot
holds. -/
theorem stepKeepsTheAssemblyData : Obligations.StepKeepsTheAssemblyData := by
  unfold Obligations.StepKeepsTheAssemblyData
  intro s t h hd hst
  obtain ⟨m, rest, k, -, hstep⟩ := h.step_eq_runMove
  exact runMove_keeps_assemblyData (s := { s with script := rest, tick := k }) hd
    (hstep.symm.trans hst)

end Sys2Proof.Machine

/-! # What the published slot shows (R174, R175, R246, R272) -/

namespace Sys2Proof.Machine

variable {s t : State}

/-! ## The moves that publish nothing -/

/-- No publish, and no byte of the published slot written. -/
structure ShownKept (s t : State) : Prop where
  pointer : t.displayPointer = s.displayPointer
  publishes : t.publishes = s.publishes
  slotByte : ∀ a, t.slotByte s.displayPointer a = s.slotByte s.displayPointer a

theorem DisplayKept.shownKept (h : DisplayKept s t) : ShownKept s t :=
  ⟨h.pointer, h.publishes, h.slotByte _⟩

/-- In a good state every move is a RESET, a publish, or keeps what the published slot shows. -/
theorem State.Inv.shown_cases (h : s.Inv) {m : Move} (hm : runMove m s = .next t) :
    t = s.resetEvent ∨ (s.capState = .asmPublish ∧ t = s.slotPublished) ∨ ShownKept s t := by
  by_cases hreset : m = .reset
  · subst hreset
    cases hm
    exact .inl rfl
  by_cases hcap : m = .cap
  · subst hcap
    by_cases hc : s.capState = .asmPublish
    · cases (runCap_asmPublish hc).symm.trans hm
      exact .inr (.inl ⟨hc, rfl⟩)
    · have hst : CapStep s t := (capStep_of_runCap hm).2
      obtain ⟨hptr, hpub⟩ := hst.pointer hc
      exact .inr (.inr ⟨hptr, hpub, hst.slotByte h.published_ne_staging⟩)
  · exact .inr (.inr (runMove_displayKept hcap hreset hm).shownKept)

/-! ## The three planes (R175) -/

theorem State.hasPublished_iff : s.HasPublished ↔ 0 < s.publishes := by
  rw [State.publishes, List.countP_pos_iff]
  constructor
  · rintro ⟨k, hk⟩
    exact ⟨.pub k, hk, rfl⟩
  · rintro ⟨e, he, hpub⟩
    cases e with
    | pub k => exact ⟨k, he⟩
    | _ => cases hpub

theorem ShownKept.planesEqual (h : ShownKept s t) (hpl : s.PlanesEqual) : t.PlanesEqual := by
  intro hpub p hp off hoff
  rw [State.hasPublished_iff, h.publishes, ← State.hasPublished_iff] at hpub
  rw [h.pointer, h.slotByte, h.slotByte]
  exact hpl hpub p hp off hoff

theorem planeOffset_zero (off : Nat) : planeOffset 0 off = off := by
  simp [planeOffset]

theorem State.Replicated.planesEqual (h : s.Replicated) : s.slotPublished.PlanesEqual := by
  intro _ p hp off hoff
  have hplane := h 0 (by decide) off hoff
  rw [planeOffset_zero] at hplane
  exact (h p hp off hoff).trans hplane.symm

/-- Nothing is published yet after RESET. -/
theorem State.resetEvent_planesEqual (s : State) : s.resetEvent.PlanesEqual := by
  rintro ⟨k, hk⟩
  cases hk

/-- Settles O53: a publish shows the three copies of RawFrame, RESET forgets every publish, and the
other moves keep what is shown. -/
theorem stepKeepsThePlanesEqual : Obligations.StepKeepsThePlanesEqual := by
  unfold Obligations.StepKeepsThePlanesEqual
  intro s t h hd hpl hst
  obtain ⟨m, rest, k, hinv, hstep⟩ := h.step_eq_runMove
  rcases hinv.shown_cases (hstep.symm.trans hst) with rfl | ⟨hc, rfl⟩ | hkept
  · exact State.resetEvent_planesEqual _
  · exact State.Replicated.planesEqual ((State.assemblyData_asmPublish hc).1 hd)
  · exact hkept.planesEqual hpl

/-! ## The parity of the pointer (R174, R246) -/

theorem ShownKept.pointerParity (h : ShownKept s t) (hpar : s.PointerParity) : t.PointerParity := by
  calc t.displayPointer.val
    _ = s.displayPointer.val := congrArg Fin.val h.pointer
    _ = s.publishes % 2 := hpar
    _ = t.publishes % 2 := congrArg (· % 2) h.publishes.symm

theorem other_slot_val (k : Fin 2) : (1 - k).val = (k.val + 1) % 2 := by
  revert k
  decide

theorem State.slotPublished_publishes (s : State) : s.slotPublished.publishes = s.publishes + 1 :=
  List.countP_append

theorem State.slotPublished_pointerParity (hstg : s.stg = 1 - s.displayPointer)
    (hpar : s.PointerParity) : s.slotPublished.PointerParity := by
  have hpar' : s.displayPointer.val = s.publishes % 2 := hpar
  calc s.slotPublished.displayPointer.val
    _ = (1 - s.displayPointer).val := congrArg Fin.val hstg
    _ = (s.publishes % 2 + 1) % 2 := by rw [other_slot_val, hpar']
    _ = (s.publishes + 1) % 2 := Nat.mod_add_mod _ _ _
    _ = s.slotPublished.publishes % 2 := by rw [State.slotPublished_publishes]

/-- Settles O58: each publish flips the pointer and is one more, RESET begins anew, and the other
moves publish nothing. -/
theorem stepKeepsThePointerParity : Obligations.StepKeepsThePointerParity := by
  unfold Obligations.StepKeepsThePointerParity
  intro s t h hpar hst
  obtain ⟨m, rest, k, hinv, hstep⟩ := h.step_eq_runMove
  rcases hinv.shown_cases (hstep.symm.trans hst) with rfl | ⟨hc, rfl⟩ | hkept
  · rfl
  · exact State.slotPublished_pointerParity (hinv.staging (by rw [hc]; rfl)) hpar
  · exact hkept.pointerParity hpar

/-! ## The frame of the stream (R149, R164, R272) -/

/-- Settles O54: the planes are RawFrame, and RawFrame is the frame of the stream. -/
theorem publishShowsTheFrameOfTheStream : Obligations.PublishShowsTheFrameOfTheStream := by
  unfold Obligations.PublishShowsTheFrameOfTheStream
  intro s t _ hcd hd hc hrun p hp off hoff
  cases (runCap_asmPublish hc).symm.trans hrun
  obtain ⟨-, hframe⟩ := (State.captureData_passComplete (by rw [hc]; rfl)).1 hcd
  calc s.slotPublished.slotByte s.slotPublished.displayPointer (p * 32000 + off)
    _ = s.rawByte off := (State.assemblyData_asmPublish hc).1 hd p hp off hoff
    _ = frameByte s.mode s.par.dstnLeadDiscard s.stream off := hframe off hoff

end Sys2Proof.Machine

/-! # One publish_from (R170, R175, R271)

The assembly is followed from `ASM_SELECT` by what it has kept of the state it began in, and by the
number of moves still to come, which each move counts down. -/

namespace Sys2Proof.Machine

variable {s t u : State}

/-! ## The moves to come (R271) -/

/-- How many moves of CAP are left until the staging slot is published. -/
def State.assemblyLeft (s : State) : Nat :=
  match s.capState with
  | .asmZero => (Config.slotBytes - s.zo) + Config.slotBytes + 1
  | .asmCopy => (Config.slotBytes - (3 * s.o + s.p)) + 1
  | .asmPublish => 1
  | _ => 0

theorem State.assemblyLeft_asmZero (hc : s.capState = .asmZero) :
    s.assemblyLeft = (Config.slotBytes - s.zo) + Config.slotBytes + 1 := by
  rw [State.assemblyLeft, hc]

theorem State.assemblyLeft_asmCopy (hc : s.capState = .asmCopy) :
    s.assemblyLeft = (Config.slotBytes - (3 * s.o + s.p)) + 1 := by
  rw [State.assemblyLeft, hc]

theorem State.assemblyLeft_asmPublish (hc : s.capState = .asmPublish) : s.assemblyLeft = 1 := by
  rw [State.assemblyLeft, hc]

/-- CAP assembles, and the position it has reached is inside its spaces (R68). -/
def State.AssemblyPosition (s : State) : Prop :=
  (s.capState = .asmZero ∧ s.zo < Config.slotBytes) ∨
  (s.capState = .asmCopy ∧ s.o < Config.frameBytes ∧ s.p < Config.nPlanes) ∨
  s.capState = .asmPublish

theorem State.AssemblyPosition.left_pos (h : s.AssemblyPosition) : 0 < s.assemblyLeft := by
  rcases h with ⟨hc, -⟩ | ⟨hc, -⟩ | hc
  · rw [State.assemblyLeft_asmZero hc]
    exact Nat.succ_pos _
  · rw [State.assemblyLeft_asmCopy hc]
    exact Nat.succ_pos _
  · rw [State.assemblyLeft_asmPublish hc]
    exact Nat.succ_pos _

/-- A zeroed byte brings the publish one move nearer. -/
theorem State.byteZeroed_position (hc : s.capState = .asmZero) (hzo : s.zo < Config.slotBytes) :
    s.byteZeroed.AssemblyPosition ∧ s.byteZeroed.assemblyLeft + 1 = s.assemblyLeft := by
  rw [State.assemblyLeft_asmZero hc]
  unfold State.byteZeroed State.nextZero
  split
  · rename_i hnext
    refine ⟨.inl ⟨hc, Nat.add_lt_of_lt_sub hnext⟩, ?_⟩
    rw [State.assemblyLeft_asmZero (by exact hc)]
    simp only [State.setSlot_zo, Config.slotBytes] at *
    omega
  · rename_i hlast
    refine ⟨.inr (.inl ⟨rfl, Nat.succ_pos _, Nat.succ_pos _⟩), ?_⟩
    rw [State.assemblyLeft_asmCopy rfl]
    simp only [State.setSlot_zo, Config.slotBytes] at *
    omega

/-- A copied byte brings the publish one move nearer. -/
theorem State.byteCopied_position (hc : s.capState = .asmCopy) (ho : s.o < Config.frameBytes)
    (hp : s.p < Config.nPlanes) :
    s.byteCopied.AssemblyPosition ∧ s.byteCopied.assemblyLeft + 1 = s.assemblyLeft := by
  rw [State.assemblyLeft_asmCopy hc]
  unfold State.byteCopied State.nextCopy
  split
  · rename_i hplane
    refine ⟨.inr (.inl ⟨hc, ho, Nat.add_lt_of_lt_sub hplane⟩), ?_⟩
    rw [State.assemblyLeft_asmCopy (by exact hc)]
    simp only [State.setSlot_o, State.setSlot_p, Config.slotBytes, Config.frameBytes,
      Config.nPlanes] at *
    omega
  · split
    · rename_i hoff
      refine ⟨.inr (.inl ⟨hc, Nat.add_lt_of_lt_sub hoff, Nat.succ_pos _⟩), ?_⟩
      rw [State.assemblyLeft_asmCopy (by exact hc)]
      simp only [State.setSlot_o, State.setSlot_p, Config.slotBytes, Config.frameBytes,
        Config.nPlanes] at *
      omega
    · refine ⟨.inr (.inr rfl), ?_⟩
      rw [State.assemblyLeft_asmPublish rfl]
      simp only [State.setSlot_o, State.setSlot_p, Config.slotBytes, Config.frameBytes,
        Config.nPlanes] at *
      omega

/-! ## What the assembly keeps -/

/-- `t` is a state, after the selection, of the `publish_from` that began in `s`. -/
structure State.Assembles (s t : State) : Prop where
  position : t.AssemblyPosition
  data : t.AssemblyData
  staging : t.stg = 1 - s.displayPointer
  pointer : t.displayPointer = s.displayPointer
  trace : t.trace = s.trace
  slotByte : ∀ a, t.slotByte s.displayPointer a = s.slotByte s.displayPointer a
  rawByte : ∀ a, t.rawByte a = s.rawByte a

/-- `ASM_SELECT` begins the assembly. -/
theorem State.stagingSelected_assembles (s : State) : s.Assembles s.stagingSelected where
  position := .inl ⟨rfl, Nat.succ_pos _⟩
  data := s.stagingSelected_assemblyData
  staging := rfl
  pointer := rfl
  trace := rfl
  slotByte := fun _ => rfl
  rawByte := fun _ => rfl

/-- The slot written is not the one published when the assembly began (R176). -/
theorem State.Assembles.published_ne_staging (h : s.Assembles t) : s.displayPointer ≠ t.stg :=
  h.staging ▸ other_slot_ne s.displayPointer

/-- A step of the assembly that publishes nothing and writes no RawFrame byte goes on with it. -/
theorem State.Assembles.next (h : s.Assembles t) (hst : CapStep t u) (hpos : u.AssemblyPosition)
    (hkept : u.stg = t.stg ∧ u.displayPointer = t.displayPointer ∧ u.trace = t.trace)
    (hraw : ∀ a, u.rawByte a = t.rawByte a) : s.Assembles u where
  position := hpos
  data := hst.assemblyData h.data
  staging := hkept.1.trans h.staging
  pointer := hkept.2.1.trans h.pointer
  trace := hkept.2.2.trans h.trace
  slotByte := fun a =>
    (hst.slotByte (fun _ => h.published_ne_staging) a).trans (h.slotByte a)
  rawByte := fun a => (hraw a).trans (h.rawByte a)

/-- Before the publish each move of CAP goes on with the assembly and is one move less to come. -/
theorem State.Assembles.goesOn (h : s.Assembles t) (hp : t.capState ≠ .asmPublish) :
    ∃ u, runCap t = .next u ∧ s.Assembles u ∧ u.assemblyLeft + 1 = t.assemblyLeft := by
  rcases h.position with ⟨hc, hzo⟩ | ⟨hc, ho, hpl⟩ | hc
  · obtain ⟨hpos, hleft⟩ := State.byteZeroed_position hc hzo
    exact ⟨_, runCap_asmZero hc hzo,
      h.next (.zero hc hzo) hpos t.byteZeroed_kept t.rawByte_byteZeroed, hleft⟩
  · obtain ⟨hpos, hleft⟩ := State.byteCopied_position hc ho hpl
    exact ⟨_, runCap_asmCopy hc ho hpl,
      h.next (.copy hc ho (planeOffset_lt_slotBytes hpl ho)) hpos t.byteCopied_kept
        t.rawByte_byteCopied, hleft⟩
  · exact absurd hc hp

/-! ## The whole run -/

theorem runMoves_cons {m : Move} {ms : List Move} (h : runMove m s = .next t) :
    runMoves (m :: ms) s = runMoves ms t := by
  simp only [runMoves, h]

/-- The moves to come end with the publish of a slot that the assembly has filled. -/
theorem State.Assembles.runsToPublish {n : Nat} (h : s.Assembles t) (hn : t.assemblyLeft = n) :
    ∃ u, s.Assembles u ∧ u.capState = .asmPublish ∧
      runMoves (List.replicate n .cap) t = .next u.slotPublished := by
  induction n generalizing t with
  | zero => exact absurd hn h.position.left_pos.ne'
  | succ n ih =>
    by_cases hc : t.capState = .asmPublish
    · have hone : n + 1 = 1 := hn.symm.trans (State.assemblyLeft_asmPublish hc)
      refine ⟨t, h, hc, ?_⟩
      rw [hone, List.replicate_one, runMoves_cons (m := .cap) (runCap_asmPublish hc)]
      rfl
    · obtain ⟨v, hv, hav, hleft⟩ := h.goesOn hc
      obtain ⟨u, hu, huc, hrun⟩ := ih hav (Nat.succ_injective (hleft.trans hn))
      refine ⟨u, hu, huc, ?_⟩
      rw [List.replicate_succ, runMoves_cons (m := .cap) hv, hrun]

/-- From the selection to the publish there are 192002 moves (R271). -/
theorem runMoves_publishFrom (hc : s.capState = .asmSelect) :
    ∃ u, s.Assembles u ∧ u.capState = .asmPublish ∧
      runMoves (List.replicate 192002 .cap) s = .next u.slotPublished := by
  have hleft : s.stagingSelected.assemblyLeft + 1 = 192002 := by
    have hzo : s.stagingSelected.zo = 0 := rfl
    rw [State.assemblyLeft_asmZero rfl, hzo, Config.slotBytes]
  obtain ⟨u, hu, huc, hrun⟩ := s.stagingSelected_assembles.runsToPublish rfl
  refine ⟨u, hu, huc, ?_⟩
  rw [← hleft, List.replicate_succ, runMoves_cons (m := .cap) (runCap_asmSelect hc), hrun]

theorem State.Assembles.plane (h : s.Assembles t) (hc : t.capState = .asmPublish) {p off : Nat}
    (hp : p < Config.nPlanes) (hoff : off < Config.frameBytes) :
    t.slotPublished.slotByte t.slotPublished.displayPointer (planeOffset p off) = s.rawByte off :=
  ((State.assemblyData_asmPublish hc).1 h.data p hp off hoff).trans (h.rawByte off)

theorem pixelOffset_lt {x r : Nat} (hx : x < Config.width) (hr : r < Config.height) :
    pixelOffset x r < Config.frameBytes := by
  simp only [pixelOffset, Config.width, Config.height, Config.bytesPerRow, Config.frameBytes] at *
  omega

/-- Settles O59: the run ends with the publish, whose planes are those the assembly has filled. -/
theorem publishFromReplicatesTheFrame : Obligations.PublishFromReplicatesTheFrame := by
  unfold Obligations.PublishFromReplicatesTheFrame
  intro s hc
  obtain ⟨u, hu, huc, hrun⟩ := runMoves_publishFrom hc
  refine ⟨u.slotPublished, hrun, rfl, hu.staging, ?trace, fun p hp off hoff => hu.plane huc hp hoff,
    fun p hp x hx r hr => ?pixel, hu.slotByte, hu.rawByte⟩
  case trace =>
    calc u.slotPublished.trace
      _ = u.trace ++ [.pub u.stg] := rfl
      _ = s.trace ++ [.pub (1 - s.displayPointer)] := by rw [hu.trace, hu.staging]
  case pixel => exact congrArg (·.getLsbD (pixelBit x)) (hu.plane huc hp (pixelOffset_lt hx hr))

end Sys2Proof.Machine

/-! # The rows of the feeder (R188 to R192) -/

namespace Sys2Proof.Machine

variable {s t : State}

/-! ## The acquire, the submit and the advance -/

/-- The two ways on from an acquire (R188, R197). -/
theorem State.acquired_eq (s : State) (h : Nat) (rest : List Nat) :
    s.acquired h rest =
      if s.par.ptrSnapshot = .perRow ∨ s.fy = 0
        then { s with freeQ := rest, fblk := some h, trace := s.trace ++ [.acq h],
                      feedState := .readPtr }
        else { s with freeQ := rest, fblk := some h, trace := s.trace ++ [.acq h],
                      fch := 0, fb := 0, feedState := .readEncode } := by
  by_cases hp : s.par.ptrSnapshot = .perRow ∨ s.fy = 0
  · have hr : s.readsPointer = true := by simpa [State.readsPointer] using hp
    rw [if_pos hp, State.acquired, if_pos hr]
    rfl
  · have hr : ¬ s.readsPointer = true := by simpa [State.readsPointer] using hp
    rw [if_neg hp, State.acquired, if_neg hr]
    rfl

theorem execFAcquire_of_nil (hq : s.freeQ = []) : execFAcquire s = .next s := by
  rw [execFAcquire, hq]
  rfl

theorem execFAcquire_of_cons {h : Nat} {rest : List Nat} (hq : s.freeQ = h :: rest) :
    execFAcquire s = .next (s.acquired h rest) := by
  rw [execFAcquire, hq]
  rfl

/-- Settles O36, by the head of `free_q`. -/
theorem acquireResult : Obligations.AcquireResult := by
  unfold Obligations.AcquireResult
  intro s
  refine ⟨execFAcquire_of_nil, fun h rest hq => ?_⟩
  rw [← State.acquired_eq]
  exact execFAcquire_of_cons hq

/-- Settles O37, which is the row's definition. -/
theorem readPointerResult : Obligations.ReadPointerResult := by
  unfold Obligations.ReadPointerResult
  exact fun s => rfl

theorem execFSubmit_of_full {h : Nat} (hh : s.fblk = some h)
    (hq : s.par.validCap ≤ s.validQ.length) : execFSubmit s = .next s := by
  simp only [execFSubmit, hh, pushTail_eq_none.2 hq]

theorem execFSubmit_of_room {h : Nat} (hh : s.fblk = some h)
    (hq : s.validQ.length < s.par.validCap) :
    execFSubmit s = .next { s.emit (.sub h) with
      validQ := s.validQ ++ [h], fblk := none, feedState := .advance } := by
  simp only [execFSubmit, hh, pushTail_eq_some.2 ⟨hq, rfl⟩]

/-- Settles O39, by the room in `valid_q`. -/
theorem submitResult : Obligations.SubmitResult := by
  unfold Obligations.SubmitResult
  exact fun s h hh => ⟨execFSubmit_of_full hh, execFSubmit_of_room hh⟩

/-- Settles O40, which is the row's definition. -/
theorem advanceResult : Obligations.AdvanceResult := by
  unfold Obligations.AdvanceResult
  exact fun s => rfl

/-! ## The slices and the payload (R49, R52, R190) -/

theorem State.sliceOf_congr (h : t.fslice = s.fslice) (c : Nat) : t.sliceOf c = s.sliceOf c := by
  rw [State.sliceOf, h, State.sliceOf]

/-- The slices after a byte is read: that byte is the one of the row, the others are as before. -/
theorem State.collected_fslice_get (hc : s.fch < 3) (hb : s.fb < Config.bytesPerRow) {c b : Nat}
    (hc' : c < 3) (hb' : b < Config.bytesPerRow) :
    ((s.collected hc hb).fslice[c])[b] =
      if c = s.fch ∧ b = s.fb then s.slotByte s.fptr (sliceOffset s.fch s.fy s.fb)
      else (s.fslice[c])[b] := by
  simp only [State.collected, Vector.getElem_set]
  by_cases hcc : s.fch = c
  · subst hcc
    simp [Vector.getElem_set, eq_comm]
  · simp [hcc, Ne.symm hcc]

theorem State.collected_sliceOf_of_ne (hc : s.fch < 3) (hb : s.fb < Config.bytesPerRow) {c : Nat}
    (hne : c ≠ s.fch) (hc' : c < 3) : (s.collected hc hb).sliceOf c = s.sliceOf c := by
  rw [State.sliceOf_of_lt hc', State.sliceOf_of_lt hc', State.collected,
    Vector.getElem_set_ne _ _ hne.symm]

theorem State.nextChannel_eq (s : State) :
    s.nextChannel =
      { s with
          fb := 0
          fch := if s.fch < 2 then s.fch + 1 else s.fch
          feedState := if s.fch < 2 then s.feedState else .submit } := by
  simp only [State.nextChannel, Config.nPlanes]
  by_cases hch : s.fch < 2 <;> simp [hch]

/-- The state `F_READ_ENCODE` leaves after the last byte of a slice (R190). -/
def State.channelEncoded (s : State) (hc : s.fch < 3) (hb : s.fb < Config.bytesPerRow) (h : Nat) :
    State :=
  ((s.collected hc hb).encodeRow h s.fch).nextChannel

theorem State.channelEncoded_eq (hc : s.fch < 3) (hb : s.fb < Config.bytesPerRow) (h : Nat) :
    s.channelEncoded hc hb h =
      { s with
          fslice := (s.collected hc hb).fslice
          payload := ((s.collected hc hb).encodeRow h s.fch).payload
          trace := s.trace ++ [.enc h s.fch ((s.collected hc hb).sliceOf s.fch)]
          fb := 0
          fch := if s.fch < 2 then s.fch + 1 else s.fch
          feedState := if s.fch < 2 then s.feedState else .submit } := by
  rw [State.channelEncoded, State.nextChannel_eq]
  rfl

section
variable (hc : s.fch < 3) (hb : s.fb < Config.bytesPerRow) (h : Nat)

@[simp] theorem State.channelEncoded_fslice : (s.channelEncoded hc hb h).fslice =
      (s.collected hc hb).fslice := by
  rw [State.channelEncoded_eq]

@[simp] theorem State.channelEncoded_trace : (s.channelEncoded hc hb h).trace =
      s.trace ++ [.enc h s.fch ((s.collected hc hb).sliceOf s.fch)] := by
  rw [State.channelEncoded_eq]

@[simp] theorem State.channelEncoded_feedState : (s.channelEncoded hc hb h).feedState =
      if s.fch < 2 then s.feedState else .submit := by
  rw [State.channelEncoded_eq]

@[simp] theorem State.channelEncoded_fch : (s.channelEncoded hc hb h).fch =
      if s.fch < 2 then s.fch + 1 else s.fch := by
  rw [State.channelEncoded_eq]

@[simp] theorem State.channelEncoded_fb : (s.channelEncoded hc hb h).fb = 0 := by
  rw [State.channelEncoded_eq]

@[simp] theorem State.channelEncoded_fblk : (s.channelEncoded hc hb h).fblk = s.fblk := by
  rw [State.channelEncoded_eq]

@[simp] theorem State.channelEncoded_fy : (s.channelEncoded hc hb h).fy = s.fy := by
  rw [State.channelEncoded_eq]

end

/-- The payload after an `encode_row` call: the slice of that channel of that handle is new. -/
theorem State.encodeRow_payloadOf (s : State) {h c g c' : Nat} (hc : c < 3) (hc' : c' < 3) :
    (s.encodeRow h c).payloadOf g c' =
      if g = h ∧ c' = c then s.sliceOf c else s.payloadOf g c' := by
  simp only [State.payloadOf, State.encodeRow_payload, State.encodeRow_epoch, Sparse.find_insert]
  by_cases hgc : g = h ∧ c' = c
  · obtain ⟨rfl, rfl⟩ := hgc
    simp
  · have hkey : 3 * g + c' ≠ 3 * h + c := by omega
    simp [hgc, hkey]

theorem State.channelEncoded_payloadOf (hc : s.fch < 3) (hb : s.fb < Config.bytesPerRow)
    {h g c : Nat} (hc' : c < 3) :
    (s.channelEncoded hc hb h).payloadOf g c =
      if g = h ∧ c = s.fch then (s.collected hc hb).sliceOf s.fch else s.payloadOf g c := by
  rw [State.channelEncoded_eq]
  exact (s.collected hc hb).encodeRow_payloadOf hc hc'

/-- Byte `b` of a row's slice in plane `c` lies inside a slot (R64, R68). -/
theorem sliceOffset_lt {c row b : Nat} (hc : c < 3) (hrow : row < Config.height)
    (hb : b < Config.bytesPerRow) : sliceOffset c row b < Config.slotBytes := by
  simp only [sliceOffset, Config.height, Config.bytesPerRow, Config.frameBytes,
    Config.slotBytes] at *
  omega

/-- Settles O38: on an inner byte the slice alone is written, on the last one the encode follows. -/
theorem readEncodeResult : Obligations.ReadEncodeResult := by
  unfold Obligations.ReadEncodeResult
  intro s hc hfy hb
  have hoff := sliceOffset_lt hc hfy hb
  refine ⟨fun hin => ?inner, fun h hlast hh => ?last⟩
  case inner =>
    exact ⟨_, execFReadEncode_of_lt hoff hc hb hin, rfl,
      fun c b hc' hb' => State.collected_fslice_get hc hb hc' hb'⟩
  case last =>
    have hlast' : ¬ s.fb < Config.bytesPerRow - 1 := by
      simp [hlast]
    refine ⟨s.channelEncoded hc hb h, execFReadEncode_of_last hoff hc hb hlast' hh, ?frame,
      fun c b hc' hb' => ?slice, ?encoded, fun g c hc' hgc => ?other⟩
    case frame =>
      rw [State.channelEncoded_eq]
      rfl
    case slice =>
      simp only [State.channelEncoded_fslice]
      exact State.collected_fslice_get hc hb hc' hb'
    case encoded =>
      rw [State.channelEncoded_payloadOf hc hb hc, if_pos ⟨rfl, rfl⟩]
      exact State.sliceOf_congr (State.channelEncoded_fslice hc hb h).symm _
    case other =>
      rw [State.channelEncoded_payloadOf hc hb hc', if_neg (not_and_or.2 hgc)]

end Sys2Proof.Machine

/-! # The capacities of the queues and the backpressure (R191, R195, R227) -/

namespace Sys2Proof.Machine

variable {s v : State}

/-- Every handle is counted in exactly one place (R53). -/
theorem State.Inv.handles_length (h : s.Inv) :
    s.freeQ.length + s.validQ.length + s.fblk.toList.length + s.sinkHeld.length =
      s.par.nBlocks := by
  simpa [State.handles, Nat.add_assoc] using h.handles.length_eq

theorem State.feedStuck_submit_of_room (hf : s.feedState = .submit)
    (hq : s.validQ.length < s.par.validCap) : s.feedStuck = none := by
  simp only [State.feedStuck, hf, if_pos hq]

theorem State.feedStuck_acquire (hf : s.feedState = .acquire) :
    s.feedStuck = if s.freeQ.isEmpty then some .blockFreeEmpty else none := by
  simp only [State.feedStuck, hf]

/-- Settles O47: the handle to be pushed is not yet in its queue, so the queue holds fewer than all
of them. -/
theorem capacityGuardsNeverFail : Obligations.CapacityGuardsNeverFail := by
  unfold Obligations.CapacityGuardsNeverFail
  intro s h
  have hcount := h.handles_length
  refine ⟨fun hcap hf => ?submit, fun hheld => ?release⟩
  case submit =>
    obtain ⟨b, hh⟩ := h.exists_fblk (by rw [hf]; rfl)
    rw [hh, Option.toList_some, List.length_singleton] at hcount
    exact State.feedStuck_submit_of_room hf (by omega)
  case release =>
    have hpos := List.length_pos_iff.2 hheld
    have hcap := nBlocks_le_freeCap h.parWf
    have hroom : s.freeQ.length < s.par.freeCap := by omega
    simp [State.releaseGuard, hheld, hroom]

/-- FEED waits for a free block and there is none (R214). -/
def State.Starved (s : State) : Prop := s.feedState = .acquire ∧ s.freeQ = []

theorem State.Starved.feedStuck (h : s.Starved) : s.feedStuck = some .blockFreeEmpty := by
  rw [State.feedStuck_acquire h.1, h.2]
  rfl

/-- FEED waits for a free block and the SINK's queues are as they were. -/
def StarvedKept (s v : State) : Prop :=
  v.Starved ∧ v.validQ = s.validQ ∧ v.sinkHeld = s.sinkHeld

theorem runSink_release_of_not_held {b : Nat} (hb : b ∉ s.sinkHeld) :
    runSink (.release b) s = .next s := by
  rw [runSink_release_eq, execSinkReleaseFree, if_neg hb]

theorem runSink_take_of_nil (hq : s.validQ = []) : runSink .take s = .next s := by
  rw [runSink_take_eq, execSinkTakeValid, hq]
  rfl

theorem runFeed_of_starved (h : s.Starved) : runFeed s = .next s := by
  rw [runFeed_eq, h.1]
  exact execFAcquire_of_nil h.2

/-- Only a RESET, the release of a held handle or the take of a valid one changes a state in which
FEED is starved. -/
theorem State.Starved.kept (h : s.Starved) {m : Move} (hm : runMove m s = .next v)
    (hreset : m ≠ .reset) (htake : m = .sinkTake → s.validQ = [])
    (hrelease : ∀ b, m = .sinkRelease b → b ∉ s.sinkHeld) : StarvedKept s v := by
  cases m with
  | cap =>
    rw [(capStep_of_runCap hm).2.restoreForeign]
    exact ⟨h, rfl, rfl⟩
  | feed =>
    cases (runFeed_of_starved h).symm.trans hm
    exact ⟨h, rfl, rfl⟩
  | sinkTake =>
    cases (runSink_take_of_nil (htake rfl)).symm.trans hm
    exact ⟨h, rfl, rfl⟩
  | sinkRelease b =>
    cases (runSink_release_of_not_held (hrelease b rfl)).symm.trans hm
    exact ⟨h, rfl, rfl⟩
  | busDrive =>
    cases hm
    exact ⟨h, rfl, rfl⟩
  | reset => exact absurd rfl hreset

/-- With one block, submitted, no other place holds a handle. -/
theorem State.Inv.oneBlock_submitted (h : s.Inv) (hn : s.par.nBlocks = 1) (hq : s.validQ = [0]) :
    s.freeQ = [] ∧ s.sinkHeld = [] := by
  have hcount := h.handles_length
  rw [hn, hq, List.length_singleton] at hcount
  exact ⟨List.eq_nil_of_length_eq_zero (by omega), List.eq_nil_of_length_eq_zero (by omega)⟩

/-- The state a take of the one submitted block leaves (R226). -/
def State.blockTaken (s : State) : State := { s with validQ := [], sinkHeld := [0] }

/-- The state a release of the one held block leaves (R227). -/
def State.blockReleased (s : State) : State := { s with sinkHeld := [], freeQ := [0] }

theorem runSink_take_oneBlock (hq : s.validQ = [0]) (hheld : s.sinkHeld = []) :
    runSink .take s = .next s.blockTaken := by
  rw [runSink_take_eq, execSinkTakeValid, hq, hheld]
  rfl

theorem runSink_release_oneBlock (hheld : s.sinkHeld = [0]) (hfree : s.freeQ = [])
    (hcap : 0 < s.par.freeCap) : runSink (.release 0) s = .next s.blockReleased := by
  have hpush : pushTail s.par.freeCap s.freeQ 0 = some [0] :=
    pushTail_eq_some.2 ⟨by rwa [hfree], by rw [hfree]; rfl⟩
  rw [runSink_release_eq, execSinkReleaseFree, hpush, hheld]
  rfl

/-- Settles O48: the one block is in `valid_q`, then with the SINK, then free, and no other move
takes it on. -/
theorem oneBlockBackpressure : Obligations.OneBlockBackpressure := by
  unfold Obligations.OneBlockBackpressure
  intro s h hn hf hq
  obtain ⟨hfree, hheld⟩ := h.oneBlock_submitted hn hq
  have hstarved : s.Starved := ⟨hf, hfree⟩
  have htaken : s.blockTaken.Starved := ⟨hf, hfree⟩
  have hcap : 0 < s.par.freeCap := by
    have := nBlocks_le_freeCap h.parWf
    omega
  refine ⟨hstarved.feedStuck, fun m v htake hreset hm => ?submitted, s.blockTaken,
    runSink_take_oneBlock hq hheld, htaken.feedStuck, rfl, rfl,
    fun m v hrelease hreset hm => ?taken, s.blockTaken.blockReleased,
    runSink_release_oneBlock rfl hfree hcap, ?free, rfl⟩
  case submitted =>
    obtain ⟨hv, hvalid, -⟩ := hstarved.kept hm hreset (fun e => absurd e htake)
      (fun b _ => by simp [hheld])
    exact ⟨hv.feedStuck, hv.1, hvalid.trans hq⟩
  case taken =>
    have hother : ∀ b, m = .sinkRelease b → b ∉ s.blockTaken.sinkHeld := by
      rintro b rfl hb
      exact hrelease (congrArg Move.sinkRelease (List.mem_singleton.1 hb))
    obtain ⟨hv, hvalid, hsink⟩ := htaken.kept hm hreset (fun _ => rfl) hother
    exact ⟨hv.feedStuck, hv.1, hvalid, hsink⟩
  case free => exact State.feedStuck_acquire hf

end Sys2Proof.Machine

/-! # What the other agents leave of the feeder (R20, R176, R265) -/

namespace Sys2Proof.Machine

variable {s t : State}

theorem State.observed_append_of_not_pub {e : Event} (he : e.isPub = false)
    (htr : t.trace = s.trace ++ [e]) : t.observed = s.observed ++ [e] := by
  simp [State.observed, htr, he]

theorem State.observed_append_pub {k : Fin 2} (htr : t.trace = s.trace ++ [.pub k]) :
    t.observed = s.observed := by
  simp [State.observed, htr, Event.isPub]

/-- CAP emits the event of a publish, or none. -/
theorem CapStep.trace_cases (h : CapStep s t) :
    t.trace = s.trace ∨ ∃ k, t.trace = s.trace ++ [.pub k] := by
  cases h with
  | waiting | armed | fired | first | highDstn | highTft | done | select => exact .inl rfl
  | boot =>
    rw [State.booted, State.latchStrap_eq]
    exact .inl rfl
  | low =>
    unfold State.afterLowDstn
    dsimp only
    split <;> exact .inl rfl
  | lead =>
    unfold State.discardLead
    dsimp only
    split <;> exact .inl rfl
  | second =>
    rw [State.nextPair_eq]
    exact .inl rfl
  | byte =>
    rw [State.nextByte_eq]
    exact .inl rfl
  | zero => exact .inl s.byteZeroed_kept.2.2
  | copy => exact .inl s.byteCopied_kept.2.2
  | publish => exact .inr ⟨s.stg, rfl⟩

theorem CapStep.observed (h : CapStep s t) : t.observed = s.observed := by
  rcases h.trace_cases with htr | ⟨k, htr⟩
  · rw [State.observed, htr, State.observed]
  · exact State.observed_append_pub htr

/-- The state of FEED and the events it has emitted are as they were. -/
structure FeederKept (s t : State) : Prop where
  feedState : t.feedState = s.feedState
  fy : t.fy = s.fy
  fptr : t.fptr = s.fptr
  fch : t.fch = s.fch
  fb : t.fb = s.fb
  fblk : t.fblk = s.fblk
  fslice : t.fslice = s.fslice
  observed : t.observed = s.observed

theorem CapStep.feederKept (h : CapStep s t) : FeederKept s t := by
  have hobs := h.observed
  rw [h.restoreForeign] at hobs ⊢
  exact ⟨rfl, rfl, rfl, rfl, rfl, rfl, rfl, hobs⟩

theorem SinkStep.feederKept (h : SinkStep s t) : FeederKept s t := by
  rw [h.frame]
  exact ⟨rfl, rfl, rfl, rfl, rfl, rfl, rfl, rfl⟩

/-- Every move but those of FEED and RESET leaves FEED's state and events. -/
theorem runMove_feederKept {m : Move} (hfeed : m ≠ .feed) (hreset : m ≠ .reset)
    (h : runMove m s = .next t) : FeederKept s t := by
  cases m with
  | cap => exact (capStep_of_runCap h).2.feederKept
  | feed => exact absurd rfl hfeed
  | sinkTake => exact (sinkStep_of_take h).feederKept
  | sinkRelease b => exact (sinkStep_of_release h).feederKept
  | busDrive =>
    cases h
    exact ⟨rfl, rfl, rfl, rfl, rfl, rfl, rfl, rfl⟩
  | reset => exact absurd rfl hreset

/-- Every move is a step of FEED, a RESET, or leaves FEED's state and events. -/
theorem runMove_feeder_cases {m : Move} (h : runMove m s = .next t) :
    FeedStep s t ∨ t = s.resetEvent ∨ FeederKept s t := by
  by_cases hfeed : m = .feed
  · subst hfeed
    exact .inl (feedStep_of_runFeed h)
  by_cases hreset : m = .reset
  · subst hreset
    cases h
    exact .inr (.inl rfl)
  · exact .inr (.inr (runMove_feederKept hfeed hreset h))

end Sys2Proof.Machine

/-! # The slices FEED collects (R189, R190, R265)

The bytes of a row are read plane by plane, so the bytes collected so far are the first `readIndex`
of the 240. -/

namespace Sys2Proof.Machine

variable {s t : State}

/-- The number of bytes of the row read so far. -/
def State.readIndex (s : State) : Nat := s.fch * Config.bytesPerRow + s.fb

/-- The first `n` bytes of the slices are those of the row in slot `fptr`. -/
def State.SlicesRead (s : State) (n : Nat) : Prop :=
  ∀ (c b : Nat) (_ : c < 3) (_ : b < Config.bytesPerRow), c * Config.bytesPerRow + b < n →
    (s.fslice[c])[b] = s.rowSliceByte s.fptr c s.fy b

theorem State.Inv.sliceData_iff (h : s.Inv) :
    s.SliceData ↔ (s.feedState = .readEncode → s.SlicesRead s.readIndex) := by
  have hfch : s.fch < 3 := h.fch
  have hfb := h.fb
  unfold State.SliceData
  refine forall_congr' fun _ => ⟨?_, fun hread => ⟨fun c hc b hb => ?_, fun b hb hlt => ?_⟩⟩
  · rintro ⟨hdone, hpart⟩ c b hc hb hlt
    rw [← State.sliceOf_of_lt hc]
    simp only [State.readIndex, Config.bytesPerRow] at *
    rcases Nat.lt_or_ge c s.fch with hcf | hcf
    · exact hdone c hcf b hb
    · obtain rfl : c = s.fch := by omega
      exact hpart b hb (by omega)
  · have hc3 : c < 3 := by omega
    rw [State.sliceOf_of_lt hc3]
    refine hread c b hc3 hb ?_
    simp only [State.readIndex, Config.bytesPerRow] at *
    omega
  · rw [State.sliceOf_of_lt hfch]
    exact hread s.fch b hfch hb (Nat.add_lt_add_left hlt _)

/-- Nothing is asked of the slices before the first byte. -/
theorem State.slicesRead_zero (s : State) : s.SlicesRead 0 := fun _ _ _ _ => nofun

/-- The byte read is the next one of the row. -/
theorem State.SlicesRead.collected (h : s.SlicesRead s.readIndex) (hc : s.fch < 3)
    (hb : s.fb < Config.bytesPerRow) : (s.collected hc hb).SlicesRead (s.readIndex + 1) := by
  intro c b hc' hb' hlt
  rw [State.collected_fslice_get hc hb hc' hb']
  by_cases hcb : c = s.fch ∧ b = s.fb
  · obtain ⟨rfl, rfl⟩ := hcb
    exact if_pos ⟨rfl, rfl⟩
  · rw [if_neg hcb]
    refine h c b hc' hb' ?_
    simp only [State.readIndex, Config.bytesPerRow] at *
    omega

theorem State.SlicesRead.channelEncoded (h : s.SlicesRead s.readIndex) (hc : s.fch < 3)
    (hb : s.fb < Config.bytesPerRow) (b : Nat) :
    (s.channelEncoded hc hb b).SlicesRead (s.readIndex + 1) := by
  rw [State.channelEncoded_eq]
  exact h.collected hc hb

/-- After the last byte of a slice the next channel begins, or the row is read. -/
theorem State.channelEncoded_readIndex (hc : s.fch < 3) (hb : s.fb < Config.bytesPerRow)
    (hlast : ¬ s.fb < Config.bytesPerRow - 1) (b : Nat)
    (hf : (s.channelEncoded hc hb b).feedState = .readEncode) :
    (s.channelEncoded hc hb b).readIndex = s.readIndex + 1 := by
  by_cases hch : s.fch < 2
  · have hfb : s.fb = 79 := by
      simp only [Config.bytesPerRow] at hb hlast
      omega
    simp only [State.readIndex, State.channelEncoded_fch, State.channelEncoded_fb, if_pos hch, hfb,
      Config.bytesPerRow]
    omega
  · simp [hch] at hf

/-- The slices stay those of the row as long as its slot is not written. -/
theorem FeederKept.sliceData (h : FeederKept s t)
    (hslot : s.feedState = .readEncode → ∀ a, t.slotByte s.fptr a = s.slotByte s.fptr a)
    (hd : s.SliceData) : t.SliceData := by
  intro hf
  rw [h.feedState] at hf
  simp only [State.sliceOf, State.rowSliceByte, h.fch, h.fb, h.fptr, h.fy, h.fslice, hslot hf]
  exact hd hf

theorem FeedStep.sliceData (hst : FeedStep s t) (h : s.Inv) (hd : s.SliceData) : t.SliceData := by
  have hread := h.sliceData_iff.1 hd
  have hinv : t.Inv := hst.inv h
  rw [hinv.sliceData_iff]
  cases hst with
  | blocked => exact hread
  | acquire =>
    rw [State.acquired_eq]
    split
    · exact nofun
    · exact fun _ => State.slicesRead_zero _
  | readPtr => exact fun _ => State.slicesRead_zero _
  | collect hf hc hb => exact fun _ => (hread hf).collected hc hb
  | encode hf hc hb hlast =>
    intro hnext
    have hindex := State.channelEncoded_readIndex hc hb hlast _ hnext
    exact hindex ▸ (hread hf).channelEncoded hc hb _
  | submit | advance => exact nofun

/-- CAP writes no slot but the staging one, in `ASM_ZERO` and `ASM_COPY`. -/
theorem CapStep.slotByte_of_ne_staging (h : CapStep s t) {k : Fin 2}
    (hk : s.capState = .asmZero ∨ s.capState = .asmCopy → s.stg ≠ k) (a : Nat) :
    t.slotByte k a = s.slotByte k a := by
  rcases h.display_cases with hd | ⟨hc, rfl⟩ | ⟨hc, rfl⟩ | ⟨-, rfl⟩
  · exact hd.slotByte k a
  · have hne : s.stg ≠ k := hk (.inl hc)
    rw [State.slotByte_byteZeroed, if_neg fun hka => hne hka.1.symm]
  · have hne : s.stg ≠ k := hk (.inr hc)
    rw [State.slotByte_byteCopied, if_neg fun hka => hne hka.1.symm]
  · rfl

/-- While FEED reads a row, premise T1 keeps CAP off its slot (R256, R265). -/
theorem State.T1.ne_staging (h : s.T1) (hf : s.feedState = .readEncode)
    (hc : s.capState = .asmZero ∨ s.capState = .asmCopy) : s.stg ≠ s.fptr := by
  refine h ?_ hc
  unfold State.rowReadInFlight
  cases s.par.ptrSnapshot <;> simp [hf]

/-- While FEED reads a row, no move but RESET writes its slot, if those of CAP meet T1. -/
theorem runMove_slotByte_fptr {m : Move} (hT1 : m = .cap → s.T1) (hreset : m ≠ .reset)
    (hm : runMove m s = .next t) (hf : s.feedState = .readEncode) (a : Nat) :
    t.slotByte s.fptr a = s.slotByte s.fptr a := by
  by_cases hcap : m = .cap
  · subst hcap
    exact (capStep_of_runCap hm).2.slotByte_of_ne_staging ((hT1 rfl).ne_staging hf) a
  · exact (runMove_displayKept hcap hreset hm).slotByte _ a

theorem runMove_keeps_sliceData (h : s.Inv) {m : Move} (hT1 : m = .cap → s.T1) (hd : s.SliceData)
    (hm : runMove m s = .next t) : t.SliceData := by
  by_cases hfeed : m = .feed
  · subst hfeed
    exact (feedStep_of_runFeed hm).sliceData h hd
  by_cases hreset : m = .reset
  · subst hreset
    cases hm
    exact nofun
  · exact (runMove_feederKept hfeed hreset hm).sliceData (runMove_slotByte_fptr hT1 hreset hm) hd

/-- The next step of a good state is the move up next, in a good state. -/
theorem State.Inv.step_eq_upNext (h : s.Inv) :
    ∃ m rest k, s.upNext = .move m ∧ ({ s with script := rest, tick := k } : State).Inv ∧
      step s = runMove m { s with script := rest, tick := k } := by
  cases hs : s.script with
  | nil =>
    exact ⟨_, s.script, s.tick + 1, by rw [State.upNext, hs], { h with }, step_of_script_nil hs⟩
  | cons u rest =>
    have hturns : ∀ v ∈ u :: rest, ∃ m, v = Turn.move m := hs ▸ h.script
    obtain ⟨m, rfl⟩ := hturns u List.mem_cons_self
    refine ⟨m, rest, s.tick, by rw [State.upNext, hs],
      { h with script := fun v hv => hturns v (List.mem_cons_of_mem _ hv) }, ?_⟩
    rw [step_of_script_cons hs, runTurn_move]

/-- Settles O55: a move of FEED reads the next byte of the row, and T1 keeps the others off the slot
it is read from. -/
theorem stepKeepsTheSliceDataUnderT1 : Obligations.StepKeepsTheSliceDataUnderT1 := by
  unfold Obligations.StepKeepsTheSliceDataUnderT1
  intro s t h hT1 hd hst
  obtain ⟨m, rest, k, hnext, hinv, hstep⟩ := h.step_eq_upNext
  have hT1' : m = .cap → s.T1 := fun hcap => hT1 (hcap ▸ hnext)
  exact runMove_keeps_sliceData hinv hT1' hd (hstep.symm.trans hst)

end Sys2Proof.Machine

/-! # The events of a row and the row counter (R192 to R194) -/

namespace Sys2Proof.Machine

variable {s t : State}

/-! ## The row in progress -/

theorem State.encoded_succ (s : State) (h n : Nat) :
    s.encoded h (n + 1) = s.encoded h n ++ [.enc h n (s.sliceOf n)] := by
  simp [State.encoded, List.range_succ]

/-- The events of the channels encoded so far depend on their slices alone. -/
theorem State.encoded_congr {n : Nat} (h : Nat) (hs : ∀ c < n, t.sliceOf c = s.sliceOf c) :
    t.encoded h n = s.encoded h n :=
  List.map_congr_left fun c hc => by rw [hs c (List.mem_range.1 hc)]

/-- The byte being read belongs to no channel encoded so far. -/
theorem State.collected_encoded (hc : s.fch < 3) (hb : s.fb < Config.bytesPerRow) (h : Nat) :
    (s.collected hc hb).encoded h s.fch = s.encoded h s.fch :=
  State.encoded_congr h fun _ hlt => State.collected_sliceOf_of_ne hc hb hlt.ne (hlt.trans hc)

theorem State.channelEncoded_encoded (hc : s.fch < 3) (hb : s.fb < Config.bytesPerRow) (h : Nat) :
    (s.channelEncoded hc hb h).encoded h (s.fch + 1) =
      s.encoded h s.fch ++ [.enc h s.fch ((s.collected hc hb).sliceOf s.fch)] := by
  rw [State.channelEncoded_eq]
  calc (s.collected hc hb).encoded h (s.fch + 1)
    _ = (s.collected hc hb).encoded h s.fch ++ _ := State.encoded_succ _ h s.fch
    _ = _ := by rw [State.collected_encoded]

theorem State.partialRow_of_none (hh : s.fblk = none) : s.partialRow = [] := by
  simp only [State.partialRow, hh]

theorem State.partialRow_readPtr {h : Nat} (hh : s.fblk = some h) (hf : s.feedState = .readPtr) :
    s.partialRow = [.acq h] := by
  simp only [State.partialRow, hh, hf]

theorem State.partialRow_readEncode {h : Nat} (hh : s.fblk = some h)
    (hf : s.feedState = .readEncode) : s.partialRow = .acq h :: s.encoded h s.fch := by
  simp only [State.partialRow, hh, hf]

theorem State.partialRow_submit {h : Nat} (hh : s.fblk = some h) (hf : s.feedState = .submit) :
    s.partialRow = .acq h :: s.encoded h 3 := by
  simp only [State.partialRow, hh, hf]

/-- With an `encode_row` call the row in progress is one event longer, after the third channel as
before. -/
theorem State.channelEncoded_partialRow {h : Nat} (hh : s.fblk = some h)
    (hf : s.feedState = .readEncode) (hc : s.fch < 3) (hb : s.fb < Config.bytesPerRow) :
    (s.channelEncoded hc hb h).partialRow =
      s.partialRow ++ [.enc h s.fch ((s.collected hc hb).sliceOf s.fch)] := by
  have hheld : (s.channelEncoded hc hb h).fblk = some h := by
    rw [State.channelEncoded_fblk, hh]
  have hrow : s.partialRow = .acq h :: s.encoded h s.fch := State.partialRow_readEncode hh hf
  rw [hrow, List.cons_append, ← State.channelEncoded_encoded]
  by_cases hch : s.fch < 2
  · have hnext : (s.channelEncoded hc hb h).fch = s.fch + 1 := by
      rw [State.channelEncoded_fch, if_pos hch]
    rw [← hnext]
    exact State.partialRow_readEncode hheld (by rw [State.channelEncoded_feedState, if_pos hch, hf])
  · have hthird : s.fch + 1 = 3 := by omega
    rw [hthird]
    exact State.partialRow_submit hheld (by rw [State.channelEncoded_feedState, if_neg hch])

/-! ## The shape of the trace (R193) -/

/-- The row in progress goes on with what is emitted. -/
theorem State.TraceShape.goOn {es : List Event} (h : s.TraceShape)
    (hobs : t.observed = s.observed ++ es) (hrow : t.partialRow = s.partialRow ++ es) :
    t.TraceShape := by
  obtain ⟨rows, hrows⟩ := h
  exact ⟨rows, by rw [hobs, hrow, hrows, List.append_assoc]⟩

/-- The row in progress is finished by what is emitted. -/
theorem State.TraceShape.finish {es : List Event} {r : Nat × Slice × Slice × Slice}
    (h : s.TraceShape) (hobs : t.observed = s.observed ++ es)
    (hrow : s.partialRow ++ es = rowOf r) (hnone : t.fblk = none) : t.TraceShape := by
  obtain ⟨rows, hrows⟩ := h
  refine ⟨rows ++ [r], ?_⟩
  rw [hobs, hrows, State.partialRow_of_none hnone, List.append_assoc, hrow]
  simp

theorem FeederKept.traceShape (h : FeederKept s t) (hs : s.TraceShape) : t.TraceShape := by
  refine hs.goOn (es := []) (h.observed.trans (List.append_nil _).symm) ?_
  simp only [State.partialRow, State.encoded, State.sliceOf, h.fblk, h.feedState, h.fch, h.fslice,
    List.append_nil]

theorem FeedStep.traceShape (hst : FeedStep s t) (h : s.Inv) (hs : s.TraceShape) :
    t.TraceShape := by
  cases hst with
  | blocked => exact hs
  | @acquire b rest hf hq =>
    have hnone := State.partialRow_of_none (h.fblk_none (by rw [hf]; rfl))
    rw [State.acquired_eq]
    split
    · refine hs.goOn (State.observed_append_of_not_pub (e := .acq b) rfl rfl) ?_
      rw [hnone]
      exact State.partialRow_readPtr rfl rfl
    · refine hs.goOn (State.observed_append_of_not_pub (e := .acq b) rfl rfl) ?_
      rw [hnone]
      exact State.partialRow_readEncode rfl rfl
  | readPtr hf =>
    obtain ⟨b, hh⟩ := h.exists_fblk (by rw [hf]; rfl)
    refine hs.goOn (es := []) (List.append_nil _).symm ?_
    rw [State.partialRow_readPtr hh hf]
    exact State.partialRow_readEncode hh rfl
  | collect hf hc hb =>
    obtain ⟨b, hh⟩ := h.exists_fblk (by rw [hf]; rfl)
    refine hs.goOn (es := []) (List.append_nil _).symm ?_
    rw [State.partialRow_readEncode hh hf, List.append_nil, ← State.collected_encoded hc hb]
    exact State.partialRow_readEncode hh hf
  | @encode b hf hc hb _ hh =>
    refine hs.goOn ?_ (State.channelEncoded_partialRow hh hf hc hb)
    exact State.observed_append_of_not_pub rfl (State.channelEncoded_trace hc hb b)
  | @submit b hf hh =>
    refine hs.finish (r := (b, s.sliceOf 0, s.sliceOf 1, s.sliceOf 2))
      (State.observed_append_of_not_pub (e := .sub b) rfl rfl) ?_ rfl
    rw [State.partialRow_submit hh hf]
    rfl
  | advance hf =>
    have hnone : s.fblk = none := h.fblk_none (by rw [hf]; rfl)
    refine hs.goOn (es := []) (List.append_nil _).symm ?_
    rw [State.partialRow_of_none hnone]
    exact State.partialRow_of_none hnone

/-- Settles O56: each event of FEED goes on with the row in progress, the submit finishes it, and no
other agent shows an event. -/
theorem stepKeepsTheTraceShape : Obligations.StepKeepsTheTraceShape := by
  unfold Obligations.StepKeepsTheTraceShape
  intro s t h hs hst
  obtain ⟨m, rest, k, hinv, hstep⟩ := h.step_eq_runMove
  rcases runMove_feeder_cases (hstep.symm.trans hst) with hfeed | rfl | hkept
  · exact hfeed.traceShape hinv hs
  · exact ⟨[], rfl⟩
  · exact hkept.traceShape hs

/-! ## The row counter (R192, R194) -/

/-- How many blocks have been acquired since reset. -/
def State.acquires (s : State) : Nat := s.trace.countP Event.isAcq

/-- How many rows have been submitted since reset. -/
def State.submits (s : State) : Nat := s.trace.countP Event.isSub

/-- Both are counts of what the block shows: a publish is neither. -/
theorem State.acquires_eq_observed (s : State) : s.acquires = s.observed.countP Event.isAcq := by
  rw [State.acquires, State.observed, List.countP_filter]
  exact List.countP_congr fun e _ => by cases e <;> simp [Event.isAcq, Event.isPub]

theorem State.submits_eq_observed (s : State) : s.submits = s.observed.countP Event.isSub := by
  rw [State.submits, State.observed, List.countP_filter]
  exact List.countP_congr fun e _ => by cases e <;> simp [Event.isSub, Event.isPub]

theorem State.rowCount_iff :
    s.RowCount ↔ s.acquires = s.submits + s.fblk.toList.length ∧
      s.submits % 400 = if s.feedState = .advance then (s.fy + 1) % 400 else s.fy :=
  Iff.rfl

/-- The counts after an event. -/
theorem State.counts_append {e : Event} (htr : t.trace = s.trace ++ [e]) :
    t.acquires = s.acquires + (if e.isAcq then 1 else 0) ∧
    t.submits = s.submits + (if e.isSub then 1 else 0) := by
  simp [State.acquires, State.submits, htr, List.countP_singleton]

theorem FeederKept.rowCount (h : FeederKept s t) (hs : s.RowCount) : t.RowCount := by
  rw [State.rowCount_iff, State.acquires_eq_observed, State.submits_eq_observed] at hs ⊢
  rw [h.observed, h.fblk, h.feedState, h.fy]
  exact hs

/-- A step that leaves the row and its handle, and neither acquires nor submits. -/
theorem State.RowCount.congr (hs : s.RowCount) (hacq : t.acquires = s.acquires)
    (hsub : t.submits = s.submits) (hh : t.fblk = s.fblk) (hfy : t.fy = s.fy)
    (hf : s.feedState ≠ .advance) (hf' : t.feedState ≠ .advance) : t.RowCount := by
  rw [State.rowCount_iff, if_neg hf] at hs
  rw [State.rowCount_iff, if_neg hf', hacq, hsub, hh, hfy]
  exact hs

theorem State.RowCount.acquired (hs : s.RowCount) (hf : s.feedState = .acquire)
    (hh : s.fblk = none) (b : Nat) (rest : List Nat) : (s.acquired b rest).RowCount := by
  obtain ⟨hpair, hrow⟩ := State.rowCount_iff.1 hs
  obtain ⟨hacq, hsub⟩ := State.counts_append (t := s.acquired b rest) (e := .acq b)
    (by rw [State.acquired_frame])
  have hf' : (s.acquired b rest).feedState ≠ .advance := by
    rw [State.acquired_eq]
    split <;> exact nofun
  rw [hh] at hpair
  rw [hf] at hrow
  rw [State.rowCount_iff, hacq, hsub, if_neg hf', State.acquired_frame]
  exact ⟨congrArg (· + 1) hpair, hrow⟩

theorem State.RowCount.channelEncoded (hs : s.RowCount) (hf : s.feedState = .readEncode)
    (hc : s.fch < 3) (hb : s.fb < Config.bytesPerRow) (h : Nat) :
    (s.channelEncoded hc hb h).RowCount := by
  obtain ⟨hacq, hsub⟩ := State.counts_append (State.channelEncoded_trace hc hb h)
  refine hs.congr hacq hsub (State.channelEncoded_fblk hc hb h) (State.channelEncoded_fy hc hb h)
    (by rw [hf]; exact nofun) ?_
  rw [State.channelEncoded_feedState, hf]
  split <;> exact nofun

theorem State.RowCount.submitted {b : Nat} (hs : s.RowCount) (hf : s.feedState = .submit)
    (hh : s.fblk = some b) (htr : t.trace = s.trace ++ [.sub b]) (hnone : t.fblk = none)
    (hf' : t.feedState = .advance) (hfy : t.fy = s.fy) : t.RowCount := by
  obtain ⟨hpair, hrow⟩ := State.rowCount_iff.1 hs
  obtain ⟨hacq, hsub⟩ := State.counts_append htr
  rw [hh] at hpair
  rw [hf, if_neg nofun] at hrow
  rw [State.rowCount_iff, hacq, hsub, hnone, if_pos hf', hfy]
  refine ⟨hpair, ?_⟩
  change (s.submits + 1) % 400 = (s.fy + 1) % 400
  omega

theorem FeedStep.rowCount (hst : FeedStep s t) (h : s.Inv) (hs : s.RowCount) : t.RowCount := by
  cases hst with
  | blocked => exact hs
  | acquire hf => exact hs.acquired hf (h.fblk_none (by rw [hf]; rfl)) _ _
  | readPtr hf => exact hs.congr rfl rfl rfl rfl (by rw [hf]; exact nofun) nofun
  | collect hf =>
    have hne : s.feedState ≠ .advance := by rw [hf]; exact nofun
    exact hs.congr rfl rfl rfl rfl hne hne
  | encode hf hc hb => exact hs.channelEncoded hf hc hb _
  | submit hf hh => exact hs.submitted hf hh rfl rfl rfl rfl
  | advance hf =>
    obtain ⟨hpair, hrow⟩ := State.rowCount_iff.1 hs
    rw [if_pos hf] at hrow
    refine ⟨hpair, hrow.trans ?_⟩
    have hfy : s.fy < 400 := h.fy
    rw [if_neg nofun]
    simp only [Config.height]
    split <;> omega

/-- Settles O57: the acquire and the submit are counted as they happen, and after the submit of a
row the counter goes on to the next. -/
theorem stepKeepsTheRowCount : Obligations.StepKeepsTheRowCount := by
  unfold Obligations.StepKeepsTheRowCount
  intro s t h hs hst
  obtain ⟨m, rest, k, hinv, hstep⟩ := h.step_eq_runMove
  rcases runMove_feeder_cases (hstep.symm.trans hst) with hfeed | rfl | hkept
  · exact hfeed.rowCount hinv hs
  · exact ⟨rfl, rfl⟩
  · exact hkept.rowCount hs

end Sys2Proof.Machine

/-! # One output row (R193, R271)

The row is followed from the first `F_READ_ENCODE` by the number of bytes read, 240 of them; the
channels encoded are those of which all 80 bytes are read. -/

namespace Sys2Proof.Machine

variable {r s t u v : State} {h n : Nat}

/-! ## The moves of FEED, row by row -/

theorem runFeed_acquire {rest : List Nat} (hf : s.feedState = .acquire) (hq : s.freeQ = h :: rest) :
    runFeed s = .next (s.acquired h rest) := by
  rw [runFeed_eq, hf]
  exact execFAcquire_of_cons hq

/-- The state `F_READPTR` leaves (R189). -/
def State.pointerRead (s : State) : State :=
  { s with fptr := s.displayPointer, fch := 0, fb := 0, feedState := .readEncode }

theorem runFeed_readPtr (hf : s.feedState = .readPtr) : runFeed s = .next s.pointerRead := by
  rw [runFeed_eq, hf]
  rfl

theorem runFeed_collect (hf : s.feedState = .readEncode) (hfy : s.fy < Config.height)
    (hc : s.fch < 3) (hb : s.fb < Config.bytesPerRow) (hin : s.fb < Config.bytesPerRow - 1) :
    runFeed s = .next { s.collected hc hb with fb := s.fb + 1 } := by
  rw [runFeed_eq, hf]
  exact execFReadEncode_of_lt (sliceOffset_lt hc hfy hb) hc hb hin

theorem runFeed_encode (hf : s.feedState = .readEncode) (hfy : s.fy < Config.height)
    (hc : s.fch < 3) (hb : s.fb < Config.bytesPerRow) (hlast : ¬ s.fb < Config.bytesPerRow - 1)
    (hh : s.fblk = some h) : runFeed s = .next (s.channelEncoded hc hb h) := by
  rw [runFeed_eq, hf]
  exact execFReadEncode_of_last (sliceOffset_lt hc hfy hb) hc hb hlast hh

/-- The state `F_SUBMIT` leaves where `valid_q` has room (R191). -/
def State.submitted (s : State) (h : Nat) : State :=
  { s.emit (.sub h) with validQ := s.validQ ++ [h], fblk := none, feedState := .advance }

theorem runFeed_submit (hf : s.feedState = .submit) (hh : s.fblk = some h)
    (hq : s.validQ.length < s.par.validCap) : runFeed s = .next (s.submitted h) := by
  rw [runFeed_eq, hf]
  exact execFSubmit_of_room hh hq

/-- The state `F_ADVANCE` leaves (R192). -/
def State.advanced (s : State) : State :=
  { s with fy := if s.fy < Config.height - 1 then s.fy + 1 else 0, feedState := .acquire }

theorem runFeed_advance (hf : s.feedState = .advance) : runFeed s = .next s.advanced := by
  rw [runFeed_eq, hf]
  rfl

theorem State.advanced_fy (hfy : s.fy < 400) : s.advanced.fy = (s.fy + 1) % 400 := by
  simp only [State.advanced, Config.height]
  split <;> omega

/-! ## The bytes of the row -/

/-- What the reading of a row writes is the slices, the payload, the trace and the position. -/
def RowKept (r t : State) : Prop :=
  t = { r with
    feedState := t.feedState, fch := t.fch, fb := t.fb, fslice := t.fslice
    payload := t.payload, trace := t.trace }

theorem RowKept.trans (h : RowKept s t) (h' : RowKept t u) : RowKept s u := by
  unfold RowKept at h h'
  rw [h] at h'
  exact h'

theorem RowKept.fields (h : RowKept r t) :
    t.fy = r.fy ∧ t.fblk = r.fblk ∧ t.freeQ = r.freeQ ∧ t.validQ = r.validQ ∧
    t.par = r.par := by
  unfold RowKept at h
  rw [h]
  exact ⟨rfl, rfl, rfl, rfl, rfl⟩

/-- `t` is a state of the row that handle `h` was acquired for and whose reading began in `r`, with
`n` of its 240 bytes read. -/
structure State.ReadsRow (r : State) (h n : Nat) (t : State) : Prop where
  kept : RowKept r t
  reading : n < 240 → t.feedState = .readEncode ∧ t.fch = n / 80 ∧ t.fb = n % 80
  done : n = 240 → t.feedState = .submit
  slices : t.SlicesRead n
  trace : t.trace = r.trace ++ t.encoded h (n / 80)
  payload : ∀ c < n / 80, t.payloadOf h c = t.sliceOf c

/-- The reading begins with no byte read. -/
theorem State.readsRow_zero (hf : r.feedState = .readEncode) (hc : r.fch = 0) (hb : r.fb = 0)
    (h : Nat) : r.ReadsRow h 0 r where
  kept := rfl
  reading := fun _ => ⟨hf, hc, hb⟩
  done := nofun
  slices := r.slicesRead_zero
  trace := (List.append_nil _).symm
  payload := fun _ => nofun

theorem State.ReadsRow.readIndex (ht : r.ReadsRow h n t) (hn : n < 240) : t.readIndex = n := by
  obtain ⟨-, hch, hfb⟩ := ht.reading hn
  simp only [State.readIndex, hch, hfb, Config.bytesPerRow]
  omega

/-- An inner byte of a slice: no channel more is encoded. -/
theorem State.ReadsRow.collect (ht : r.ReadsRow h n t) (hn : n < 240) (hc : t.fch < 3)
    (hb : t.fb < Config.bytesPerRow) (hin : t.fb < 79) :
    r.ReadsRow h (n + 1) { t.collected hc hb with fb := t.fb + 1 } := by
  obtain ⟨hf, hch, hfb⟩ := ht.reading hn
  have hdiv : (n + 1) / 80 = t.fch := by omega
  have hslices : (t.collected hc hb).SlicesRead (t.readIndex + 1) :=
    State.SlicesRead.collected (ht.readIndex hn ▸ ht.slices) hc hb
  have hrest : ∀ c < t.fch, (t.collected hc hb).sliceOf c = t.sliceOf c := fun c hlt =>
    State.collected_sliceOf_of_ne hc hb hlt.ne (hlt.trans hc)
  exact {
    kept := ht.kept.trans rfl
    reading := fun _ => ⟨hf, hdiv.symm, by dsimp only; omega⟩
    done := fun hend => by omega
    slices := ht.readIndex hn ▸ hslices
    trace := by
      rw [hdiv]
      calc t.trace
        _ = r.trace ++ t.encoded h t.fch := hch ▸ ht.trace
        _ = r.trace ++ (t.collected hc hb).encoded h t.fch := by rw [State.collected_encoded]
    payload := fun c hlt => by
      rw [hdiv] at hlt
      exact (ht.payload c (hch ▸ hlt)).trans (hrest c hlt).symm }

/-- The last byte of a slice: its channel is encoded. -/
theorem State.ReadsRow.encode (ht : r.ReadsRow h n t) (hn : n < 240) (hc : t.fch < 3)
    (hb : t.fb < Config.bytesPerRow) (hlast : ¬ t.fb < 79) :
    r.ReadsRow h (n + 1) (t.channelEncoded hc hb h) := by
  obtain ⟨hf, hch, hfb⟩ := ht.reading hn
  have hdiv : (n + 1) / 80 = t.fch + 1 := by omega
  have hslices : (t.channelEncoded hc hb h).SlicesRead (t.readIndex + 1) :=
    State.SlicesRead.channelEncoded (ht.readIndex hn ▸ ht.slices) hc hb h
  have hsliceOf : ∀ c, (t.channelEncoded hc hb h).sliceOf c = (t.collected hc hb).sliceOf c :=
    State.sliceOf_congr (State.channelEncoded_fslice hc hb h)
  refine {
    kept := ht.kept.trans ?kept
    reading := fun hnext => ?reading
    done := fun hend => ?done
    slices := ht.readIndex hn ▸ hslices
    trace := ?trace
    payload := fun c hlt => ?payload }
  case kept =>
    rw [State.channelEncoded_eq]
    rfl
  case reading =>
    have htwo : t.fch < 2 := by omega
    simp only [State.channelEncoded_feedState, State.channelEncoded_fch, State.channelEncoded_fb,
      if_pos htwo]
    exact ⟨hf, hdiv.symm, by omega⟩
  case done => rw [State.channelEncoded_feedState, if_neg (by omega)]
  case trace =>
    rw [hdiv, State.channelEncoded_encoded, State.channelEncoded_trace, ← List.append_assoc, hch,
      ← ht.trace]
  case payload =>
    have hlt3 : c < 3 := by omega
    rw [State.channelEncoded_payloadOf hc hb hlt3, hsliceOf]
    by_cases hcc : c = t.fch
    · rw [if_pos ⟨rfl, hcc⟩, hcc]
    · rw [if_neg fun hboth => hcc hboth.2, State.collected_sliceOf_of_ne hc hb hcc hlt3]
      exact ht.payload c (by omega)

/-- Each move of FEED reads the next byte of the row. -/
theorem State.ReadsRow.goesOn (ht : r.ReadsRow h n t) (hn : n < 240) (hfy : r.fy < Config.height)
    (hh : r.fblk = some h) : ∃ u, runFeed t = .next u ∧ r.ReadsRow h (n + 1) u := by
  obtain ⟨hf, hch, hfb⟩ := ht.reading hn
  obtain ⟨hrow, hblock, -⟩ := ht.kept.fields
  have hfy' : t.fy < Config.height := hrow.trans_lt hfy
  have hh' : t.fblk = some h := hblock.trans hh
  have hc : t.fch < 3 := by omega
  have hb : t.fb < Config.bytesPerRow := hfb ▸ Nat.mod_lt n (by decide)
  by_cases hin : t.fb < 79
  · exact ⟨_, runFeed_collect hf hfy' hc hb hin, ht.collect hn hc hb hin⟩
  · exact ⟨_, runFeed_encode hf hfy' hc hb hin hh', ht.encode hn hc hb hin⟩

theorem State.ReadsRow.runsToSubmit {k : Nat} (ht : r.ReadsRow h n t) (hk : n + k = 240)
    (hfy : r.fy < Config.height) (hh : r.fblk = some h) :
    ∃ u, r.ReadsRow h 240 u ∧ runMoves (List.replicate k .feed) t = .next u := by
  induction k generalizing n t with
  | zero =>
    obtain rfl : n = 240 := hk
    exact ⟨t, ht, rfl⟩
  | succ k ih =>
    obtain ⟨v, hv, hrow⟩ := ht.goesOn (by omega) hfy hh
    obtain ⟨u, hu, hrun⟩ := ih hrow (by omega)
    exact ⟨u, hu, by rw [List.replicate_succ, runMoves_cons (m := .feed) hv, hrun]⟩

/-! ## The whole row -/

/-- The state in which the reading of an acquired row begins, with `PER_ROW` (R188, R189, R197). -/
def State.rowBegun (s : State) (h : Nat) (rest : List Nat) : State :=
  (s.acquired h rest).pointerRead

theorem State.rowBegun_eq {rest : List Nat} (hp : s.par.ptrSnapshot = .perRow) :
    s.rowBegun h rest =
      { s with freeQ := rest, fblk := some h, trace := s.trace ++ [.acq h],
               fptr := s.displayPointer, fch := 0, fb := 0, feedState := .readEncode } := by
  rw [State.rowBegun, State.acquired_eq, if_pos (.inl hp)]
  rfl

/-- From the acquire to the advance there are 244 moves of FEED (R271). -/
theorem runMoves_row {rest : List Nat} (hf : s.feedState = .acquire) (hq : s.freeQ = h :: rest)
    (hp : s.par.ptrSnapshot = .perRow) (hroom : s.validQ.length < s.par.validCap)
    (hfy : s.fy < Config.height) :
    ∃ t, (s.rowBegun h rest).ReadsRow h 240 t ∧
      runMoves (List.replicate 244 .feed) s = .next (t.submitted h).advanced := by
  have hbegun := State.rowBegun_eq (h := h) (rest := rest) hp
  have hptr : (s.acquired h rest).feedState = .readPtr := by
    rw [State.acquired_eq, if_pos (.inl hp)]
  have hstart : (s.rowBegun h rest).ReadsRow h 0 (s.rowBegun h rest) :=
    State.readsRow_zero rfl rfl rfl h
  obtain ⟨t, ht, hrun⟩ := hstart.runsToSubmit (k := 240) rfl (by rw [hbegun]; exact hfy)
    (by rw [hbegun])
  obtain ⟨-, hh, -, hvalid, hpar⟩ := ht.kept.fields
  rw [hbegun] at hh hvalid hpar
  have hroom' : t.validQ.length < t.par.validCap := by
    rw [hvalid, hpar]
    exact hroom
  have hsubmit : runMoves (List.replicate (240 + 1) .feed) (s.rowBegun h rest) =
      .next (t.submitted h) := by
    rw [List.replicate_succ', runMoves_append hrun]
    exact runFeed_submit (ht.done rfl) hh hroom'
  have hadvance : runMoves (List.replicate (240 + 1 + 1) .feed) (s.rowBegun h rest) =
      .next (t.submitted h).advanced := by
    rw [List.replicate_succ', runMoves_append hsubmit]
    exact runFeed_advance rfl
  refine ⟨t, ht, ?_⟩
  calc runMoves (List.replicate (240 + 1 + 1 + 1 + 1) .feed) s
    _ = runMoves (List.replicate (240 + 1 + 1 + 1) .feed) (s.acquired h rest) :=
        runMoves_cons (m := .feed) (runFeed_acquire hf hq)
    _ = runMoves (List.replicate (240 + 1 + 1) .feed) (s.rowBegun h rest) :=
        runMoves_cons (m := .feed) (runFeed_readPtr hptr)
    _ = .next (t.submitted h).advanced := hadvance

/-- The slices of a read row are those of the slot the pointer named when the row began. -/
theorem State.ReadsRow.slice (ht : r.ReadsRow h 240 t) {c b : Nat} (hc : c < 3)
    (hb : b < Config.bytesPerRow) : (t.sliceOf c)[b] = r.rowSliceByte r.fptr c r.fy b := by
  have hread := ht.slices c b hc hb (by simp only [Config.bytesPerRow] at *; omega)
  rw [State.sliceOf_of_lt hc, hread, ht.kept]
  rfl

/-- Settles O60: the row that is read between the acquire and the submit. -/
theorem oneRowOfTheFeeder : Obligations.OneRowOfTheFeeder := by
  unfold Obligations.OneRowOfTheFeeder
  intro s h rest hf hq hp hroom hfy
  obtain ⟨t, ht, hrun⟩ := runMoves_row hf hq hp hroom hfy
  have hslice : ∀ (c b : Nat) (_ : c < 3) (_ : b < Config.bytesPerRow),
      (t.sliceOf c)[b] = s.rowSliceByte s.displayPointer c s.fy b := by
    intro c b hc hb
    rw [ht.slice hc hb, State.rowBegun_eq hp]
    rfl
  have htrace : t.trace = s.trace ++ [.acq h] ++ t.encoded h 3 := by
    rw [ht.trace, State.rowBegun_eq hp]
  obtain ⟨hrow, -, hfree, hvalid, -⟩ := ht.kept.fields
  rw [State.rowBegun_eq hp] at hrow hfree hvalid
  refine ⟨_, t.sliceOf 0, t.sliceOf 1, t.sliceOf 2, hrun, ?trace, fun b hb => ?slices,
    ht.payload 0 (by decide), ht.payload 1 (by decide), ht.payload 2 (by decide), rfl, ?row, ?free,
    ?valid, rfl⟩
  case trace =>
    calc t.trace ++ [.sub h]
      _ = s.trace ++ [.acq h] ++ t.encoded h 3 ++ [.sub h] := by rw [htrace]
      _ = _ := by simp [State.encoded, List.range_succ]
  case slices =>
    refine ⟨?_, ?_, ?_⟩
    · exact (hslice 0 b (by decide) hb).trans (congrArg (s.slotByte _) (by simp [sliceOffset]))
    · exact hslice 1 b (by decide) hb
    · exact hslice 2 b (by decide) hb
  case row =>
    have hnext : (t.submitted h).advanced.fy = (t.fy + 1) % 400 :=
      State.advanced_fy (s := t.submitted h) (hrow.trans_lt hfy)
    rw [hnext, hrow]
  case free => exact hfree
  case valid => exact congrArg (· ++ [h]) hvalid

end Sys2Proof.Machine

/-! # Progress, and the stuck conditions in the place of exceptions (R212 to R214) -/

namespace Sys2Proof.Machine

variable {s t : State}

/-! ## The stuck conditions of CAP (R214) -/

theorem State.awaited_waitFrameHigh (hc : s.capState = .waitFrameHigh) :
    s.awaited = some (.fsync, true) := by
  rw [State.awaited, hc]

theorem State.awaited_waitFrameLow (hc : s.capState = .waitFrameLow) :
    s.awaited = some (.fsync, false) := by
  rw [State.awaited, hc]

/-- A sampling state polls in the first two phases of its sample (R127). -/
theorem State.awaited_sampling (hc : s.capState.sampling = true) :
    (s.gate = .arm → s.awaited = some (.pclk, !s.par.pclkSampleLevel)) ∧
    (s.gate = .fire → s.awaited = some (.pclk, s.par.pclkSampleLevel)) ∧
    (s.gate = .read → s.awaited = none) := by
  rcases CapState.sampling_iff.1 hc with hc | hc | hc <;>
    refine ⟨fun hg => ?_, fun hg => ?_, fun hg => ?_⟩ <;> rw [State.awaited, hc, hg] <;> rfl

theorem State.awaited_of_not_waiting (hhigh : s.capState ≠ .waitFrameHigh)
    (hlow : s.capState ≠ .waitFrameLow) (hc : ¬ s.capState.sampling = true) :
    s.awaited = none := by
  by_contra ha
  obtain ⟨⟨sig, lvl⟩, ha⟩ := Option.ne_none_iff_exists'.1 ha
  rcases State.awaited_of_not_sampling hc ha with ⟨hw, -⟩ | ⟨hw, -⟩
  · exact hhigh hw
  · exact hlow hw

/-- CAP is stuck where it polls for a level that is not there. -/
theorem State.capStuck_ne_none_iff {sig : Signal} {lvl : Bool} (ha : s.awaited = some (sig, lvl)) :
    s.capStuck ≠ none ↔ s.level sig ≠ lvl := by
  unfold State.capStuck
  rw [ha]
  dsimp only
  split
  · simp [*]
  · split <;> simp [*]

theorem State.capStuck_of_not_awaited (ha : s.awaited = none) : s.capStuck = none := by
  rw [State.capStuck, ha]

theorem State.capStuck_waitFrameHigh (hc : s.capState = .waitFrameHigh) :
    s.capStuck = if s.level .fsync = true then none else some .hangFsyncHigh := by
  rw [State.capStuck, State.awaited_waitFrameHigh hc, hc]

theorem State.capStuck_waitFrameLow (hc : s.capState = .waitFrameLow) :
    s.capStuck = if s.level .fsync = false then none else some .hangFsyncLow := by
  rw [State.capStuck, State.awaited_waitFrameLow hc, hc]

theorem State.capStuck_arm (hc : s.capState.sampling = true) (hg : s.gate = .arm) :
    s.capStuck = if s.level .pclk = !s.par.pclkSampleLevel then none else some .hangPclkArm := by
  rw [State.capStuck, (State.awaited_sampling hc).1 hg, hg]
  rcases CapState.sampling_iff.1 hc with hc | hc | hc <;> rw [hc]

theorem State.capStuck_fire (hc : s.capState.sampling = true) (hg : s.gate = .fire) :
    s.capStuck = if s.level .pclk = s.par.pclkSampleLevel then none else some .hangPclkFire := by
  rw [State.capStuck, (State.awaited_sampling hc).2.1 hg, hg]
  rcases CapState.sampling_iff.1 hc with hc | hc | hc <;> rw [hc]

theorem CapState.ne_wait_of_sampling {c : CapState} (hc : c.sampling = true) :
    c ≠ .waitFrameHigh ∧ c ≠ .waitFrameLow := by
  rcases CapState.sampling_iff.1 hc with rfl | rfl | rfl <;> exact ⟨nofun, nofun⟩

/-- The four conditions of CAP, by what its control state and gate wait for (R214). -/
theorem State.capStuck_listed (s : State) :
    (s.capStuck = some .hangFsyncHigh ↔
      s.capState = .waitFrameHigh ∧ s.level .fsync = false) ∧
    (s.capStuck = some .hangFsyncLow ↔
      s.capState = .waitFrameLow ∧ s.level .fsync = true) ∧
    (s.capStuck = some .hangPclkArm ↔
      s.capState.sampling = true ∧ s.gate = .arm ∧ s.level .pclk = s.par.pclkSampleLevel) ∧
    (s.capStuck = some .hangPclkFire ↔
      s.capState.sampling = true ∧ s.gate = .fire ∧ s.level .pclk ≠ s.par.pclkSampleLevel) := by
  by_cases hc : s.capState.sampling = true
  · obtain ⟨hhigh, hlow⟩ := CapState.ne_wait_of_sampling hc
    cases hg : s.gate with
    | arm => simp [State.capStuck_arm hc hg, hc, hhigh, hlow]
    | fire => simp [State.capStuck_fire hc hg, hc, hhigh, hlow]
    | read =>
      have hnone := State.capStuck_of_not_awaited ((State.awaited_sampling hc).2.2 hg)
      simp [hnone, hhigh, hlow]
  · by_cases hhigh : s.capState = .waitFrameHigh
    · simp [State.capStuck_waitFrameHigh hhigh, hhigh, CapState.sampling]
    · by_cases hlow : s.capState = .waitFrameLow
      · simp [State.capStuck_waitFrameLow hlow, hlow, CapState.sampling]
      · have hnone := State.capStuck_of_not_awaited (State.awaited_of_not_waiting hhigh hlow hc)
        simp [hnone, hhigh, hlow, hc]

/-! ## The stuck conditions of FEED (R214) -/

theorem State.feedStuck_submit (hf : s.feedState = .submit) :
    s.feedStuck = if s.validQ.length < s.par.validCap then none else some .blockValidFull := by
  rw [State.feedStuck, hf]

/-- The two conditions of FEED, by the two steps that need a queue (R214). -/
theorem State.feedStuck_listed (s : State) :
    (s.feedStuck = some .blockFreeEmpty ↔ s.feedState = .acquire ∧ s.freeQ = []) ∧
    (s.feedStuck = some .blockValidFull ↔
      s.feedState = .submit ∧ s.par.validCap ≤ s.validQ.length) := by
  cases hf : s.feedState with
  | acquire => simp [State.feedStuck_acquire hf]
  | submit => simp [State.feedStuck_submit hf]
  | readPtr | readEncode | advance => simp [State.feedStuck, hf]

/-- Settles O44: the conditions of CAP, whose three sampling states are named one by one, and those
of FEED. -/
theorem stuckConditionsAreAsListed : Obligations.StuckConditionsAreAsListed := by
  unfold Obligations.StuckConditionsAreAsListed
  intro s
  rw [← CapState.sampling_iff]
  obtain ⟨hhigh, hlow, harm, hfire⟩ := s.capStuck_listed
  obtain ⟨hfree, hvalid⟩ := s.feedStuck_listed
  exact ⟨hhigh, hlow, harm, hfire, hfree, hvalid⟩

/-! ## A move of CAP that goes on (R126, R212) -/

/-- A step changes the state where it changes one thing about it. -/
theorem Result.ne_self_of_apply_ne {α : Type} (f : State → α) {r : Result} (hr : r = .next t)
    (hne : f t ≠ f s) : r ≠ .next s := by
  rw [hr]
  exact fun hself => hne (congrArg f (Host.Outcome.next.inj hself))

/-- What follows a satisfied wait is another control state or another phase of the gate. -/
theorem State.goOn_ne_self {sig : Signal} {lvl : Bool} (ha : s.awaited = some (sig, lvl)) :
    s.goOn ≠ s := by
  by_cases hc : s.capState.sampling = true
  · have hgate : s.goOn.gate ≠ s.gate := by
      rw [State.goOn_of_awaited_sampling hc ha]
      rcases State.awaited_of_sampling hc ha with ⟨hg, -⟩ | ⟨hg, -⟩ <;> simp [hg]
    exact ne_of_apply_ne State.gate hgate
  · have hcap : s.goOn.capState ≠ s.capState := by
      rcases State.awaited_of_not_sampling hc ha with ⟨hw, -⟩ | ⟨hw, -⟩
      · cases hm : s.mode with
        | dstn => rw [State.goOn_of_highDstn hw hm, hw]; exact nofun
        | tft => rw [State.goOn_of_highTft hw hm, hw]; exact nofun
      · rw [State.goOn_of_waitFrameLow hw, hw, State.afterLowDstn]
        dsimp only
        split <;> exact nofun
    exact ne_of_apply_ne State.capState hcap

/-- Where CAP polls, its move changes nothing exactly when the level is not there. -/
theorem State.Inv.runCap_eq_self_iff_of_awaited (h : s.Inv) {sig : Signal} {lvl : Bool}
    (ha : s.awaited = some (sig, lvl)) : runCap s = .next s ↔ s.level sig ≠ lvl := by
  have hrow : exec (.waitForLevel sig lvl) s = runCap s :=
    (primitivesAreTheEnclosingStep s h.pair).1 sig lvl ha
  rw [← hrow]
  refine ⟨fun hself hl => ?_, exec_waitForLevel_of_not_level⟩
  rw [exec_waitForLevel_of_found hl ha] at hself
  exact State.goOn_ne_self ha (Host.Outcome.next.inj hself)

/-- The read of a sample arms the gate again (R127). -/
theorem State.Inv.runCap_read_ne_self (h : s.Inv) (hc : s.capState.sampling = true)
    (hg : s.gate = .read) : runCap s ≠ .next s := by
  have hrow : exec .gatedSample s = runCap s := (primitivesAreTheEnclosingStep s h.pair).2 hc
  obtain ⟨t, ht, hgate, -⟩ :=
    State.deliver_sampleKept (s := s.takeSample) hc h.col h.i s.busByte
  have hrun : runCap s = .next t := by rw [← hrow, exec_gatedSample, State.gated_read hg, ht]
  exact Result.ne_self_of_apply_ne State.gate hrun (by rw [hgate, hg]; exact nofun)

theorem runCap_bootResolve (hc : s.capState = .bootResolve) : runCap s = .next s.booted := by
  rw [runCap_eq (by rw [hc]; rfl), hc]
  rfl

theorem runCap_done (hc : s.capState = .done) :
    runCap s = .next { s with capState := .asmSelect } := by
  have hrow : ∀ m, exec (capOperation .done m s.phase) s =
      .next { s with capState := .asmSelect } := by
    intro m
    cases m <;> rfl
  rw [runCap_eq (by rw [hc]; rfl), hc]
  exact hrow s.mode

/-- A move of CAP that neither polls nor samples goes to another control state or brings the publish
nearer. -/
theorem State.Inv.runCap_ne_self_of_not_waiting (h : s.Inv) (hhigh : s.capState ≠ .waitFrameHigh)
    (hlow : s.capState ≠ .waitFrameLow) (hs : ¬ s.capState.sampling = true) :
    runCap s ≠ .next s := by
  have other {t : State} (ht : runCap s = .next t) (hne : t.capState ≠ s.capState) :=
    Result.ne_self_of_apply_ne State.capState ht hne
  have nearer {t : State} (ht : runCap s = .next t) (hleft : t.assemblyLeft + 1 = s.assemblyLeft) :=
    Result.ne_self_of_apply_ne State.assemblyLeft ht (s := s) (by omega)
  cases hc : s.capState with
  | waitFrameHigh => exact absurd hc hhigh
  | waitFrameLow => exact absurd hc hlow
  | discardLead | rowCapture | seqCapture => exact absurd (by rw [hc]; rfl) hs
  | bootResolve => exact other (runCap_bootResolve hc) (by rw [hc]; exact nofun)
  | done => exact other (runCap_done hc) (by rw [hc]; exact nofun)
  | asmSelect => exact other (runCap_asmSelect hc) (by rw [hc]; exact nofun)
  | asmZero => exact nearer (runCap_asmZero hc h.zo) (State.byteZeroed_position hc h.zo).2
  | asmCopy => exact nearer (runCap_asmCopy hc h.o h.p) (State.byteCopied_position hc h.o h.p).2
  | asmPublish => exact other (runCap_asmPublish hc) (by rw [hc]; exact nofun)

/-- Where CAP does not poll, its move changes the state. -/
theorem State.Inv.runCap_ne_self_of_not_awaited (h : s.Inv) (ha : s.awaited = none) :
    runCap s ≠ .next s := by
  by_cases hs : s.capState.sampling = true
  · obtain ⟨harm, hfire, -⟩ := State.awaited_sampling hs
    cases hg : s.gate with
    | arm => exact absurd ((harm hg).symm.trans ha) nofun
    | fire => exact absurd ((hfire hg).symm.trans ha) nofun
    | read => exact h.runCap_read_ne_self hs hg
  · refine h.runCap_ne_self_of_not_waiting (fun hc => ?_) (fun hc => ?_) hs
    · exact absurd ((State.awaited_waitFrameHigh hc).symm.trans ha) nofun
    · exact absurd ((State.awaited_waitFrameLow hc).symm.trans ha) nofun

theorem State.Inv.runCap_eq_self_iff (h : s.Inv) : runCap s = .next s ↔ s.capStuck ≠ none := by
  cases ha : s.awaited with
  | none =>
    simp [State.capStuck_of_not_awaited ha, h.runCap_ne_self_of_not_awaited ha]
  | some poll => rw [h.runCap_eq_self_iff_of_awaited ha, State.capStuck_ne_none_iff ha]

/-! ## A move of FEED that goes on (R186, R212) -/

theorem State.acquired_feedState_ne (s : State) (b : Nat) (rest : List Nat) :
    (s.acquired b rest).feedState ≠ .acquire := by
  rw [State.acquired_eq]
  split <;> exact nofun

/-- A byte of the row read moves the byte position on (R190). -/
theorem State.Inv.runFeed_readEncode_ne_self (h : s.Inv) (hf : s.feedState = .readEncode) :
    runFeed s ≠ .next s := by
  obtain ⟨b, hh⟩ := h.exists_fblk (by rw [hf]; rfl)
  by_cases hlast : s.fb < Config.bytesPerRow - 1
  · exact Result.ne_self_of_apply_ne State.fb (runFeed_collect hf h.fy h.fch h.fb hlast)
      (Nat.succ_ne_self s.fb)
  · refine Result.ne_self_of_apply_ne State.fb (runFeed_encode hf h.fy h.fch h.fb hlast hh) ?_
    rw [State.channelEncoded_fb]
    exact fun hfb => hlast (hfb ▸ by decide)

theorem State.Inv.runFeed_eq_self_iff (h : s.Inv) : runFeed s = .next s ↔ s.feedStuck ≠ none := by
  have other {t : State} (ht : runFeed s = .next t) (hne : t.feedState ≠ s.feedState) :=
    Result.ne_self_of_apply_ne State.feedState ht hne
  cases hf : s.feedState with
  | acquire =>
    rw [State.feedStuck_acquire hf]
    cases hq : s.freeQ with
    | nil => simp [runFeed_of_starved ⟨hf, hq⟩]
    | cons b rest =>
      have hgo := other (runFeed_acquire hf hq)
        (hf ▸ s.acquired_feedState_ne b rest)
      simp [hgo]
  | submit =>
    obtain ⟨b, hh⟩ := h.exists_fblk (by rw [hf]; rfl)
    rw [State.feedStuck_submit hf]
    by_cases hq : s.validQ.length < s.par.validCap
    · have hgo := other (runFeed_submit hf hh hq) (by rw [hf]; exact nofun)
      simp [hgo, hq]
    · have hself : runFeed s = .next s := by
        rw [runFeed_eq, hf]
        exact execFSubmit_of_full hh (Nat.le_of_not_lt hq)
      simp [hself, hq]
  | readPtr =>
    have hgo := other (runFeed_readPtr hf) (by rw [hf]; exact nofun)
    simp [State.feedStuck, hf, hgo]
  | readEncode => simp [State.feedStuck, hf, h.runFeed_readEncode_ne_self hf]
  | advance =>
    have hgo := other (runFeed_advance hf) (by rw [hf]; exact nofun)
    simp [State.feedStuck, hf, hgo]

/-- Settles O43, agent by agent. -/
theorem onlyStuckAgentsMakeNoProgress : Obligations.OnlyStuckAgentsMakeNoProgress := by
  unfold Obligations.OnlyStuckAgentsMakeNoProgress
  exact fun s h => ⟨h.runCap_eq_self_iff, h.runFeed_eq_self_iff⟩

end Sys2Proof.Machine

/-! # The environment: the pins and the Display Sink (R224 to R228) -/

namespace Sys2Proof.Machine

variable {s : State}

/-- Settles O11, pin by pin; the word stays one of `N_PINS` bits. -/
theorem busDriveSetsTheChosenPins : Obligations.BusDriveSetsTheChosenPins := by
  unfold Obligations.BusDriveSetsTheChosenPins
  intro s sel levels
  refine ⟨s.drive sel levels, rfl, fun p hp => ?_, drivePins_lt _ _ _ _, rfl⟩
  rw [State.drive_pins, pinLevel_drivePins, decide_eq_true hp, Bool.true_and]

theorem execSinkTakeValid_of_nil (hq : s.validQ = []) : execSinkTakeValid s = .next s :=
  (runSink_take_eq s).symm.trans (runSink_take_of_nil hq)

theorem execSinkTakeValid_of_cons {h : Nat} {rest : List Nat} (hq : s.validQ = h :: rest) :
    execSinkTakeValid s =
      .next { s with validQ := rest, sinkHeld := HandleSet.insert h s.sinkHeld } := by
  rw [execSinkTakeValid, popHead_eq_some.2 hq]

/-- Settles O41, by the head of `valid_q`. -/
theorem sinkTakeResult : Obligations.SinkTakeResult := by
  unfold Obligations.SinkTakeResult
  exact fun s => ⟨execSinkTakeValid_of_nil, fun h rest hq =>
    ⟨_, execSinkTakeValid_of_cons hq, rfl, fun _ => HandleSet.mem_insert⟩⟩

theorem execSinkReleaseFree_of_not_held {h : Nat} (hh : h ∉ s.sinkHeld) :
    execSinkReleaseFree h s = .next s :=
  (runSink_release_eq h s).symm.trans (runSink_release_of_not_held hh)

/-- With `free_q` full the release is not enabled, held handle or not. -/
theorem execSinkReleaseFree_of_full (h : Nat) (hq : s.par.freeCap ≤ s.freeQ.length) :
    execSinkReleaseFree h s = .next s := by
  rw [execSinkReleaseFree, pushTail_eq_none.2 hq]
  dsimp only
  rw [ite_self]

theorem execSinkReleaseFree_of_room {h : Nat} (hh : h ∈ s.sinkHeld)
    (hq : s.freeQ.length < s.par.freeCap) :
    execSinkReleaseFree h s =
      .next { s with sinkHeld := s.sinkHeld.erase h, freeQ := s.freeQ ++ [h] } := by
  rw [execSinkReleaseFree, if_pos hh, pushTail_eq_some.2 ⟨hq, rfl⟩]

/-- Settles O42: not enabled where the handle is not held or `free_q` is full; otherwise the one
listing of the handle is taken out. -/
theorem sinkReleaseResult : Obligations.SinkReleaseResult := by
  unfold Obligations.SinkReleaseResult
  intro s h
  constructor
  · rintro (hh | hq)
    · exact execSinkReleaseFree_of_not_held hh
    · exact execSinkReleaseFree_of_full h hq
  · intro hh hq hnodup
    exact ⟨_, execSinkReleaseFree_of_room hh hq, rfl, fun _ => hnodup.mem_erase_iff⟩

end Sys2Proof.Machine

/-! # Reset (R57, R240) -/

namespace Sys2Proof.Machine

/-- `RESET` is enabled in every state and always answers (R240). -/
theorem runMove_reset (s : State) : runMove .reset s = .next s.resetEvent := rfl

/-- The pin table after `RESET` names pin 0 for every data line (R57). -/
theorem State.resetEvent_pin_data (s : State) (k : Nat) (hk : k < 8) :
    s.resetEvent.pin.d[k] = 0 :=
  PinTable.zero_data hk

/-- Settles O9: the data pins are those of the zero table, and every other piece of state that R57
gives a value is a field of the state after reset. -/
theorem resetGivesTheResetValues : Obligations.ResetGivesTheResetValues := by
  unfold Obligations.ResetGivesTheResetValues
  intro s
  refine ⟨s.resetEvent, runMove_reset s, rfl, rfl, s.resetEvent_pin_data, ?rest⟩
  case rest => and_intros <;> rfl

end Sys2Proof.Machine
